-- ==== Sys2Proof/Word.lean ====
section
/-! DEFINITION. The word types of the Signetics 2650 (00_scope.md R6): 8-bit bytes, 15-bit addresses and
the 13-bit address inside a page. -/

namespace Sys2Proof

/-- A byte: "parallel 8-bit binary processor" (00_scope.md R6). -/
abbrev Byte := BitVec 8

/-- A full address: 2 page bits (14-13) and 13 bits in the page (20_memory.md R72). -/
abbrev Addr := BitVec 15

/-- An address inside a page of 8,192 bytes (20_memory.md R72). -/
abbrev Off := BitVec 13

end Sys2Proof
end

