-- ==== Sys2Proof/Syntax.lean ====
section
/-! DEFINITION. The syntax: one constructor for each of the 86 rows of spec/opcode_table.json
(30_encoding.md R135, R137, R141, R142), with the operand fields of R113 to R119. -/

namespace Sys2Proof

/-- The 2-bit register field of an instruction (10_state.md R22): R0, or R1 to R3 of the bank that
PSL.RS selects. -/
inductive Reg where
  | r0
  | r1
  | r2
  | r3
deriving DecidableEq, Repr

/-- The index control field of format A (30_encoding.md R116). -/
inductive IndexControl where
  /-- 00: not indexed -/
  | plain
  /-- 01: indexed with auto-increment -/
  | autoInc
  /-- 10: indexed with auto-decrement -/
  | autoDec
  /-- 11: indexed only -/
  | indexed
deriving DecidableEq, Repr

/-- The instructions. `r` is the register field (in format A with indexing the index register), `v` the
condition field of a branch or return or the immediate byte or mask, `i` the indirect bit, `d` the 7-bit
displacement, `ic` the index control and `a` the 13-bit or 15-bit address (30_encoding.md R119). -/
inductive Instr where
  -- Load and store (40_load_store.md R160 to R166)
  | lodz (r : Reg)
  | lodi (r : Reg) (v : Byte)
  | lodr (r : Reg) (i : Bool) (d : BitVec 7)
  | loda (r : Reg) (i : Bool) (ic : IndexControl) (a : Off)
  | strz (r : Reg)
  | strr (r : Reg) (i : Bool) (d : BitVec 7)
  | stra (r : Reg) (i : Bool) (ic : IndexControl) (a : Off)
  -- Arithmetic (41_arithmetic.md R172 to R180)
  | addz (r : Reg)
  | addi (r : Reg) (v : Byte)
  | addr (r : Reg) (i : Bool) (d : BitVec 7)
  | adda (r : Reg) (i : Bool) (ic : IndexControl) (a : Off)
  | subz (r : Reg)
  | subi (r : Reg) (v : Byte)
  | subr (r : Reg) (i : Bool) (d : BitVec 7)
  | suba (r : Reg) (i : Bool) (ic : IndexControl) (a : Off)
  | dar (r : Reg)
  -- Logical (42_logical.md R185 to R196)
  | andz (r : Reg)
  | andi (r : Reg) (v : Byte)
  | andr (r : Reg) (i : Bool) (d : BitVec 7)
  | anda (r : Reg) (i : Bool) (ic : IndexControl) (a : Off)
  | iorz (r : Reg)
  | iori (r : Reg) (v : Byte)
  | iorr (r : Reg) (i : Bool) (d : BitVec 7)
  | iora (r : Reg) (i : Bool) (ic : IndexControl) (a : Off)
  | eorz (r : Reg)
  | eori (r : Reg) (v : Byte)
  | eorr (r : Reg) (i : Bool) (d : BitVec 7)
  | eora (r : Reg) (i : Bool) (ic : IndexControl) (a : Off)
  -- Compare and rotate (43_compare_rotate.md R200 to R205)
  | comz (r : Reg)
  | comi (r : Reg) (v : Byte)
  | comr (r : Reg) (i : Bool) (d : BitVec 7)
  | coma (r : Reg) (i : Bool) (ic : IndexControl) (a : Off)
  | rrl (r : Reg)
  | rrr (r : Reg)
  -- Program status (44_program_status.md R210 to R219)
  | lpsu
  | lpsl
  | spsu
  | spsl
  | ppsu (v : Byte)
  | ppsl (v : Byte)
  | cpsu (v : Byte)
  | cpsl (v : Byte)
  | tpsu (v : Byte)
  | tpsl (v : Byte)
  -- Branch (45_branch.md R226 to R237)
  | bctr (v : BitVec 2) (i : Bool) (d : BitVec 7)
  | bcta (v : BitVec 2) (i : Bool) (a : Addr)
  | bcfr (v : BitVec 2) (i : Bool) (d : BitVec 7)
  | bcfa (v : BitVec 2) (i : Bool) (a : Addr)
  | brnr (r : Reg) (i : Bool) (d : BitVec 7)
  | brna (r : Reg) (i : Bool) (a : Addr)
  | birr (r : Reg) (i : Bool) (d : BitVec 7)
  | bira (r : Reg) (i : Bool) (a : Addr)
  | bdrr (r : Reg) (i : Bool) (d : BitVec 7)
  | bdra (r : Reg) (i : Bool) (a : Addr)
  | zbrr (i : Bool) (d : BitVec 7)
  | bxa (i : Bool) (a : Addr)
  -- Subroutine branch and return (46_subroutine.md R246 to R255)
  | bstr (v : BitVec 2) (i : Bool) (d : BitVec 7)
  | bsta (v : BitVec 2) (i : Bool) (a : Addr)
  | bsfr (v : BitVec 2) (i : Bool) (d : BitVec 7)
  | bsfa (v : BitVec 2) (i : Bool) (a : Addr)
  | bsnr (r : Reg) (i : Bool) (d : BitVec 7)
  | bsna (r : Reg) (i : Bool) (a : Addr)
  | zbsr (i : Bool) (d : BitVec 7)
  | bsxa (i : Bool) (a : Addr)
  | retc (v : BitVec 2)
  | rete (v : BitVec 2)
  -- Input and output (47_io.md R260 to R265)
  | redd (r : Reg)
  | redc (r : Reg)
  | rede (r : Reg) (port : Byte)
  | wrtd (r : Reg)
  | wrtc (r : Reg)
  | wrte (r : Reg) (port : Byte)
  -- Miscellaneous (48_misc.md R270 to R272)
  | nop
  | tmi (r : Reg) (v : Byte)
  | halt
  -- The code H'00' (30_encoding.md R141) and the ten unassigned codes (R142)
  | indeterminate00
  | unassigned10
  | unassigned11
  | unassigned90
  | unassigned91
  | unassignedB6
  | unassignedB7
  | unassignedC4
  | unassignedC5
  | unassignedC6
  | unassignedC7
deriving DecidableEq, Repr

end Sys2Proof
end

