-- ==== Sys2Proof/WellFormed.lean ====
section
/-! DEFINITION. Which terms of `Instr` are instructions: the operand limits of 30_encoding.md R137 to R141. -/

namespace Sys2Proof

/-- Every value of every field is legal (30_encoding.md R139 (e)) but for these: LODZ, STRZ and ANDZ do not
exist with r = 0 (R140, R141), and the false forms BCFR, BCFA, BSFR, BSFA do not exist with v = 3 (R137,
R138). -/
def Instr.wellFormed : Instr → Bool
  | .lodz r | .strz r | .andz r => r ≠ .r0
  | .bcfr v _ _ | .bcfa v _ _ | .bsfr v _ _ | .bsfa v _ _ => v ≠ 3#2
  | _ => true

end Sys2Proof
end

