-- ==== Sys2Proof/Decode.lean ====
section
/-! DEFINITION. The decoder, total on the values of the three bytes an instruction can have (30_encoding.md
R110 to R119, R133 to R137), the lengths (R111), and after them the encoder. -/

namespace Sys2Proof

/-! ## Field extraction (30_encoding.md R119) -/

/-- The register a 2-bit field names (10_state.md R22). -/
def Reg.ofBits (n : BitVec 2) : Reg :=
  match n with
  | 0#2 => .r0
  | 1#2 => .r1
  | 2#2 => .r2
  | _ => .r3

/-- The 2-bit field that names a register. -/
def Reg.bits : Reg → BitVec 2
  | .r0 => 0#2
  | .r1 => 1#2
  | .r2 => 2#2
  | .r3 => 3#2

/-- Index control: 00, 01, 10, 11 (30_encoding.md R116). -/
def IndexControl.ofBits (n : BitVec 2) : IndexControl :=
  match n with
  | 0#2 => .plain
  | 1#2 => .autoInc
  | 2#2 => .autoDec
  | _ => .indexed

/-- The bits of an index control. -/
def IndexControl.bits : IndexControl → BitVec 2
  | .plain => 0#2
  | .autoInc => 1#2
  | .autoDec => 2#2
  | .indexed => 3#2

/-- v = b0[1:0]. -/
def fieldV (b0 : Byte) : BitVec 2 := b0.extractLsb' 0 2

/-- r = b0[1:0], as a register. -/
def fieldR (b0 : Byte) : Reg := Reg.ofBits (fieldV b0)

/-- I = b1[7]. -/
def fieldI (b1 : Byte) : Bool := b1.getLsbD 7

/-- d, the seven bits b1[6:0]; their sign is taken where they are added (30_encoding.md R119). -/
def fieldD (b1 : Byte) : BitVec 7 := b1.extractLsb' 0 7

/-- ic = b1[6:5]. -/
def fieldIc (b1 : Byte) : IndexControl := IndexControl.ofBits (b1.extractLsb' 5 2)

/-- a13 = b1[4:0] :: b2. -/
def fieldA13 (b1 b2 : Byte) : Off := b1.extractLsb' 0 5 ++ b2

/-- a15 = b1[6:0] :: b2. -/
def fieldA15 (b1 b2 : Byte) : Addr := b1.extractLsb' 0 7 ++ b2

/-! ## Lengths -/

/-- The ten codes no instruction is assigned to (30_encoding.md R142) and H'00' (R141). -/
def isUnassigned (b0 : Byte) : Bool :=
  [0x00#8, 0x10#8, 0x11#8, 0x90#8, 0x91#8, 0xB6#8, 0xB7#8, 0xC4#8, 0xC5#8, 0xC6#8, 0xC7#8].contains b0

/-- The length in bytes, from the class field b0[4:2] and, in class 5, the function field b0[7:5]
(30_encoding.md R111). An unassigned code has no length; its one byte is all that is fetched (log entry 12). -/
def instrLength (b0 : Byte) : Nat :=
  if isUnassigned b0 then 1
  else
    match b0.extractLsb' 2 3 with
    | 0#3 | 4#3 => 1
    | 1#3 | 2#3 | 6#3 => 2
    | 5#3 =>
      match b0.extractLsb' 5 3 with
      | 0#3 | 1#3 | 4#3 => 1
      | _ => 2
    | _ => 3

/-! ## The decoder -/

/-- The instruction whose first byte is `b0` and whose further bytes, where it has them, are `b1` and `b2`
(30_encoding.md R133, R135, R137): selected by b0[7:2], and by all eight bits where R137, R141 or R142 say so. -/
def decodeBytes (b0 b1 b2 : Byte) : Instr :=
  match b0.extractLsb' 2 6 with
  | 0#6 =>
    match fieldR b0 with
    | .r0 => .indeterminate00
    | r => .lodz r
  | 1#6 => .lodi (fieldR b0) b1
  | 2#6 => .lodr (fieldR b0) (fieldI b1) (fieldD b1)
  | 3#6 => .loda (fieldR b0) (fieldI b1) (fieldIc b1) (fieldA13 b1 b2)
  | 4#6 =>
    match fieldR b0 with
    | .r0 => .unassigned10
    | .r1 => .unassigned11
    | .r2 => .spsu
    | .r3 => .spsl
  | 5#6 => .retc (fieldV b0)
  | 6#6 => .bctr (fieldV b0) (fieldI b1) (fieldD b1)
  | 7#6 => .bcta (fieldV b0) (fieldI b1) (fieldA15 b1 b2)
  | 8#6 => .eorz (fieldR b0)
  | 9#6 => .eori (fieldR b0) b1
  | 10#6 => .eorr (fieldR b0) (fieldI b1) (fieldD b1)
  | 11#6 => .eora (fieldR b0) (fieldI b1) (fieldIc b1) (fieldA13 b1 b2)
  | 12#6 => .redc (fieldR b0)
  | 13#6 => .rete (fieldV b0)
  | 14#6 => .bstr (fieldV b0) (fieldI b1) (fieldD b1)
  | 15#6 => .bsta (fieldV b0) (fieldI b1) (fieldA15 b1 b2)
  | 16#6 =>
    match fieldR b0 with
    | .r0 => .halt
    | r => .andz r
  | 17#6 => .andi (fieldR b0) b1
  | 18#6 => .andr (fieldR b0) (fieldI b1) (fieldD b1)
  | 19#6 => .anda (fieldR b0) (fieldI b1) (fieldIc b1) (fieldA13 b1 b2)
  | 20#6 => .rrr (fieldR b0)
  | 21#6 => .rede (fieldR b0) b1
  | 22#6 => .brnr (fieldR b0) (fieldI b1) (fieldD b1)
  | 23#6 => .brna (fieldR b0) (fieldI b1) (fieldA15 b1 b2)
  | 24#6 => .iorz (fieldR b0)
  | 25#6 => .iori (fieldR b0) b1
  | 26#6 => .iorr (fieldR b0) (fieldI b1) (fieldD b1)
  | 27#6 => .iora (fieldR b0) (fieldI b1) (fieldIc b1) (fieldA13 b1 b2)
  | 28#6 => .redd (fieldR b0)
  | 29#6 =>
    match fieldR b0 with
    | .r0 => .cpsu b1
    | .r1 => .cpsl b1
    | .r2 => .ppsu b1
    | .r3 => .ppsl b1
  | 30#6 => .bsnr (fieldR b0) (fieldI b1) (fieldD b1)
  | 31#6 => .bsna (fieldR b0) (fieldI b1) (fieldA15 b1 b2)
  | 32#6 => .addz (fieldR b0)
  | 33#6 => .addi (fieldR b0) b1
  | 34#6 => .addr (fieldR b0) (fieldI b1) (fieldD b1)
  | 35#6 => .adda (fieldR b0) (fieldI b1) (fieldIc b1) (fieldA13 b1 b2)
  | 36#6 =>
    match fieldR b0 with
    | .r0 => .unassigned90
    | .r1 => .unassigned91
    | .r2 => .lpsu
    | .r3 => .lpsl
  | 37#6 => .dar (fieldR b0)
  | 38#6 =>
    match fieldR b0 with
    | .r3 => .zbrr (fieldI b1) (fieldD b1)
    | _ => .bcfr (fieldV b0) (fieldI b1) (fieldD b1)
  | 39#6 =>
    match fieldR b0 with
    | .r3 => .bxa (fieldI b1) (fieldA15 b1 b2)
    | _ => .bcfa (fieldV b0) (fieldI b1) (fieldA15 b1 b2)
  | 40#6 => .subz (fieldR b0)
  | 41#6 => .subi (fieldR b0) b1
  | 42#6 => .subr (fieldR b0) (fieldI b1) (fieldD b1)
  | 43#6 => .suba (fieldR b0) (fieldI b1) (fieldIc b1) (fieldA13 b1 b2)
  | 44#6 => .wrtc (fieldR b0)
  | 45#6 =>
    match fieldR b0 with
    | .r0 => .tpsu b1
    | .r1 => .tpsl b1
    | .r2 => .unassignedB6
    | .r3 => .unassignedB7
  | 46#6 =>
    match fieldR b0 with
    | .r3 => .zbsr (fieldI b1) (fieldD b1)
    | _ => .bsfr (fieldV b0) (fieldI b1) (fieldD b1)
  | 47#6 =>
    match fieldR b0 with
    | .r3 => .bsxa (fieldI b1) (fieldA15 b1 b2)
    | _ => .bsfa (fieldV b0) (fieldI b1) (fieldA15 b1 b2)
  | 48#6 =>
    match fieldR b0 with
    | .r0 => .nop
    | r => .strz r
  | 49#6 =>
    match fieldR b0 with
    | .r0 => .unassignedC4
    | .r1 => .unassignedC5
    | .r2 => .unassignedC6
    | .r3 => .unassignedC7
  | 50#6 => .strr (fieldR b0) (fieldI b1) (fieldD b1)
  | 51#6 => .stra (fieldR b0) (fieldI b1) (fieldIc b1) (fieldA13 b1 b2)
  | 52#6 => .rrl (fieldR b0)
  | 53#6 => .wrte (fieldR b0) b1
  | 54#6 => .birr (fieldR b0) (fieldI b1) (fieldD b1)
  | 55#6 => .bira (fieldR b0) (fieldI b1) (fieldA15 b1 b2)
  | 56#6 => .comz (fieldR b0)
  | 57#6 => .comi (fieldR b0) b1
  | 58#6 => .comr (fieldR b0) (fieldI b1) (fieldD b1)
  | 59#6 => .coma (fieldR b0) (fieldI b1) (fieldIc b1) (fieldA13 b1 b2)
  | 60#6 => .wrtd (fieldR b0)
  | 61#6 => .tmi (fieldR b0) b1
  | 62#6 => .bdrr (fieldR b0) (fieldI b1) (fieldD b1)
  | _ => .bdra (fieldR b0) (fieldI b1) (fieldA15 b1 b2)

/-- Why the decoder rejects a list of bytes. Every value of the first byte decodes, so only a list that is
too short is rejected. -/
inductive DecodeReject where
  /-- no byte at all -/
  | noBytes
  /-- fewer bytes than the first byte's length asks for -/
  | truncated (b0 : Byte)
deriving DecidableEq, Repr

/-- The instruction at the head of a list of bytes, and the bytes after it. -/
def decode : List Byte → Except DecodeReject (Instr × List Byte)
  | [] => .error .noBytes
  | b0 :: rest =>
    match instrLength b0, rest with
    | 1, rest => .ok (decodeBytes b0 0 0, rest)
    | 2, b1 :: rest => .ok (decodeBytes b0 b1 0, rest)
    | 3, b1 :: b2 :: rest => .ok (decodeBytes b0 b1 b2, rest)
    | _, _ => .error (.truncated b0)

/-- Byte `k` of an instruction whose bits are `w` as spec/opcode_table.json numbers them (bit 0 is the least
significant bit of the first byte, bit 8 of the second), every bit from `nbits` up being 0. -/
def tableByte (nbits w k : Nat) : Byte := BitVec.ofNat 8 ((w % 2 ^ nbits) >>> (8 * k))

/-- What the decoder reads from the instruction whose bits are `w`, `nbits` of them given by the table. -/
def decodeTableWord (nbits w : Nat) : Option Instr :=
  match decode [tableByte nbits w 0, tableByte nbits w 1, tableByte nbits w 2] with
  | .ok (i, _) => some i
  | .error _ => none

/-! ## The encoder -/

/-- Byte 0 from its six-bit operation code and its two-bit field (30_encoding.md R110). -/
def opByte (op : BitVec 6) (field : BitVec 2) : Byte := op ++ field

/-- Byte 1 of format R: I, d (30_encoding.md R115). -/
def relByte (i : Bool) (d : BitVec 7) : Byte := BitVec.ofBool i ++ d

/-- Byte 1 of format A: I, index control, a13[12:8] (30_encoding.md R116). -/
def absByte (i : Bool) (ic : IndexControl) (a : Off) : Byte :=
  (BitVec.ofBool i ++ ic.bits) ++ a.extractLsb' 8 5

/-- Byte 1 of format B: I, a15[14:8] (30_encoding.md R117). -/
def branchByte (i : Bool) (a : Addr) : Byte := BitVec.ofBool i ++ a.extractLsb' 8 7

/-- Byte 2 of format A: a13[7:0]. -/
def lowByte13 (a : Off) : Byte := a.extractLsb' 0 8

/-- Byte 2 of format B: a15[7:0]. -/
def lowByte15 (a : Addr) : Byte := a.extractLsb' 0 8

/-- The bytes of an instruction, first byte first, from the encodings of 30_encoding.md R135. -/
def encode : Instr → List Byte
  -- Load and store
  | .lodz r => [opByte 0#6 r.bits]
  | .lodi r v => [opByte 1#6 r.bits, v]
  | .lodr r i d => [opByte 2#6 r.bits, relByte i d]
  | .loda r i ic a => [opByte 3#6 r.bits, absByte i ic a, lowByte13 a]
  | .strz r => [opByte 48#6 r.bits]
  | .strr r i d => [opByte 50#6 r.bits, relByte i d]
  | .stra r i ic a => [opByte 51#6 r.bits, absByte i ic a, lowByte13 a]
  -- Arithmetic
  | .addz r => [opByte 32#6 r.bits]
  | .addi r v => [opByte 33#6 r.bits, v]
  | .addr r i d => [opByte 34#6 r.bits, relByte i d]
  | .adda r i ic a => [opByte 35#6 r.bits, absByte i ic a, lowByte13 a]
  | .subz r => [opByte 40#6 r.bits]
  | .subi r v => [opByte 41#6 r.bits, v]
  | .subr r i d => [opByte 42#6 r.bits, relByte i d]
  | .suba r i ic a => [opByte 43#6 r.bits, absByte i ic a, lowByte13 a]
  | .dar r => [opByte 37#6 r.bits]
  -- Logical
  | .andz r => [opByte 16#6 r.bits]
  | .andi r v => [opByte 17#6 r.bits, v]
  | .andr r i d => [opByte 18#6 r.bits, relByte i d]
  | .anda r i ic a => [opByte 19#6 r.bits, absByte i ic a, lowByte13 a]
  | .iorz r => [opByte 24#6 r.bits]
  | .iori r v => [opByte 25#6 r.bits, v]
  | .iorr r i d => [opByte 26#6 r.bits, relByte i d]
  | .iora r i ic a => [opByte 27#6 r.bits, absByte i ic a, lowByte13 a]
  | .eorz r => [opByte 8#6 r.bits]
  | .eori r v => [opByte 9#6 r.bits, v]
  | .eorr r i d => [opByte 10#6 r.bits, relByte i d]
  | .eora r i ic a => [opByte 11#6 r.bits, absByte i ic a, lowByte13 a]
  -- Compare and rotate
  | .comz r => [opByte 56#6 r.bits]
  | .comi r v => [opByte 57#6 r.bits, v]
  | .comr r i d => [opByte 58#6 r.bits, relByte i d]
  | .coma r i ic a => [opByte 59#6 r.bits, absByte i ic a, lowByte13 a]
  | .rrl r => [opByte 52#6 r.bits]
  | .rrr r => [opByte 20#6 r.bits]
  -- Program status
  | .lpsu => [0x92#8]
  | .lpsl => [0x93#8]
  | .spsu => [0x12#8]
  | .spsl => [0x13#8]
  | .ppsu v => [0x76#8, v]
  | .ppsl v => [0x77#8, v]
  | .cpsu v => [0x74#8, v]
  | .cpsl v => [0x75#8, v]
  | .tpsu v => [0xB4#8, v]
  | .tpsl v => [0xB5#8, v]
  -- Branch
  | .bctr v i d => [opByte 6#6 v, relByte i d]
  | .bcta v i a => [opByte 7#6 v, branchByte i a, lowByte15 a]
  | .bcfr v i d => [opByte 38#6 v, relByte i d]
  | .bcfa v i a => [opByte 39#6 v, branchByte i a, lowByte15 a]
  | .brnr r i d => [opByte 22#6 r.bits, relByte i d]
  | .brna r i a => [opByte 23#6 r.bits, branchByte i a, lowByte15 a]
  | .birr r i d => [opByte 54#6 r.bits, relByte i d]
  | .bira r i a => [opByte 55#6 r.bits, branchByte i a, lowByte15 a]
  | .bdrr r i d => [opByte 62#6 r.bits, relByte i d]
  | .bdra r i a => [opByte 63#6 r.bits, branchByte i a, lowByte15 a]
  | .zbrr i d => [0x9B#8, relByte i d]
  | .bxa i a => [0x9F#8, branchByte i a, lowByte15 a]
  -- Subroutine branch and return
  | .bstr v i d => [opByte 14#6 v, relByte i d]
  | .bsta v i a => [opByte 15#6 v, branchByte i a, lowByte15 a]
  | .bsfr v i d => [opByte 46#6 v, relByte i d]
  | .bsfa v i a => [opByte 47#6 v, branchByte i a, lowByte15 a]
  | .bsnr r i d => [opByte 30#6 r.bits, relByte i d]
  | .bsna r i a => [opByte 31#6 r.bits, branchByte i a, lowByte15 a]
  | .zbsr i d => [0xBB#8, relByte i d]
  | .bsxa i a => [0xBF#8, branchByte i a, lowByte15 a]
  | .retc v => [opByte 5#6 v]
  | .rete v => [opByte 13#6 v]
  -- Input and output
  | .redd r => [opByte 28#6 r.bits]
  | .redc r => [opByte 12#6 r.bits]
  | .rede r port => [opByte 21#6 r.bits, port]
  | .wrtd r => [opByte 60#6 r.bits]
  | .wrtc r => [opByte 44#6 r.bits]
  | .wrte r port => [opByte 53#6 r.bits, port]
  -- Miscellaneous
  | .nop => [0xC0#8]
  | .tmi r v => [opByte 61#6 r.bits, v]
  | .halt => [0x40#8]
  -- The code H'00'
  | .indeterminate00 => [0x00#8]
  | .unassigned10 => [0x10#8]
  | .unassigned11 => [0x11#8]
  | .unassigned90 => [0x90#8]
  | .unassigned91 => [0x91#8]
  | .unassignedB6 => [0xB6#8]
  | .unassignedB7 => [0xB7#8]
  | .unassignedC4 => [0xC4#8]
  | .unassignedC5 => [0xC5#8]
  | .unassignedC6 => [0xC6#8]
  | .unassignedC7 => [0xC7#8]

end Sys2Proof
end

