-- ==== Sys2Proof/Config.lean ====
section
/-! DEFINITION. What the spec leaves open: the free values. Each is a constant without a body, applied to
the number of the draw (`Env.draws`), so that no proof can use what it is. -/

namespace Sys2Proof

/-- The seven general purpose registers (10_state.md R20, R22). -/
inductive PhysReg where
  | r0
  | r1
  | r2
  | r3
  | r1'
  | r2'
  | r3'
deriving DecidableEq, Repr

/-- The I/O ports: the two unaddressed ports and the 256 extended ports (20_memory.md R85). -/
inductive IoPort where
  | data
  | control
  | extended (port : Byte)
deriving DecidableEq, Repr

/-- Who answers a read from outside the processor: a port (20_memory.md R85), a device in memory space
(R89) or the interrupting device (60_exceptions.md R291). -/
inductive InputSource where
  | port (p : IoPort)
  | memory (a : Addr)
  | vector
deriving DecidableEq, Repr

/-- IO_ORACLE: the byte the environment answers (92_eei_decisions.md D11; log entry 1). -/
opaque Config.freeInput : InputSource → Nat → Byte

/-- IO_ORACLE: the level of the SENSE pin (92_eei_decisions.md D11, D24; log entry 1). -/
opaque Config.freeSense : Nat → Bool

/-- What the undriven data bus holds when an address with nothing behind it is read (20_memory.md R89,
93_implementation_defined.md U9; log entry 3). -/
opaque Config.freeBus : Addr → Nat → Byte

/-- CC after DAR, "set to a meaningless value" (41_arithmetic.md R180; log entry 13). -/
opaque Config.darCC : Nat → BitVec 2

/-- RESET_UNSPEC: the general registers after a RESET (10_state.md R58; log entry 9). -/
opaque Config.resetReg : PhysReg → Nat → Byte

/-- RESET_UNSPEC: PSL after a RESET (10_state.md R58; log entry 9). -/
opaque Config.resetPsl : Nat → Byte

/-- RESET_UNSPEC: the flag latch after a RESET (10_state.md R58; log entry 9). -/
opaque Config.resetFlag : Nat → Bool

/-- RESET_UNSPEC: the stack pointer after a RESET (10_state.md R58; log entry 9). -/
opaque Config.resetSp : Nat → BitVec 3

/-- RESET_UNSPEC: the return address stack after a RESET (10_state.md R58; log entry 9). -/
opaque Config.resetRas : Nat → Vector Addr 8

/-- Whether PAUSE, held low while the processor is already in a HALT wait, keeps an interrupt from being
accepted: "PAUSE while already in `HaltWait` is not described" (60_exceptions.md R318; log entry 31). -/
opaque Config.pauseHoldsHalt : Bool

end Sys2Proof
end

