-- ==== Sys2Proof/Machine/State.lean ====
section
/-! DEFINITION. The state of the machine (10_state.md R59), the reasons a step can stop, and the state after
reset (10_state.md R58, 70_reset_and_hazards.md R320). -/

namespace Sys2Proof.Machine

/-- The run state (10_state.md R56). -/
inductive RunState where
  /-- RUN: executing instructions -/
  | running
  /-- WAIT entered by HALT, left by RESET or an accepted interrupt -/
  | haltWait
  /-- WAIT entered while PAUSE is low, left when PAUSE goes high -/
  | pauseWait
deriving DecidableEq, Repr

/-- What stands behind an address (20_memory.md R89, `MEM_MAP`). `absent` is the spec's kind `None`. -/
inductive MemKind where
  | ram
  | rom
  | device
  | absent
deriving DecidableEq, Repr

/-- The kind of the addresses `lo` to `hi`, both included. -/
structure Region where
  lo : Nat
  hi : Nat
  kind : MemKind
deriving DecidableEq, Repr

/-- The spec's parameters that the system around the chip fixes (00_scope.md R7). No step changes them. -/
structure Params where
  /-- `MEM_MAP`: the first region that holds an address gives its kind; an address in none is Ram
  (20_memory.md R89; log entry 3) -/
  memMap : List Region
  /-- `ROTATE_OVF_STICKY` (43_compare_rotate.md R206; log entry 18) -/
  rotateOvfSticky : Bool
  /-- `INDEX_CARRY_INTO_PAGE` (30_encoding.md R130; log entry 19) -/
  indexCarryIntoPage : Bool
deriving DecidableEq, Repr

/-- The levels of the control inputs at one instruction boundary, each true when the pin is asserted:
INTREQ low, PAUSE low, RESET high (10_state.md R57). -/
structure Pins where
  intreq : Bool
  pause : Bool
  reset : Bool
deriving DecidableEq, Repr

/-- What the environment will supply (`IO_ORACLE` and `INT_ENV`, 00_scope.md R7), as plain data that the step
consumes; past the end of a list the pins are inactive and every byte and level is a free value (log entries
1 and 2). -/
structure Env where
  /-- the pins at the coming instruction boundaries (60_exceptions.md R284) -/
  boundaries : List Pins
  /-- the bytes answering the coming reads of ports and of device memory (20_memory.md R85, R89) -/
  inputs : List Byte
  /-- the levels of SENSE at the coming samples (10_state.md R29) -/
  senses : List Bool
  /-- the bytes answering the coming interrupt vector reads (60_exceptions.md R291) -/
  vectors : List Byte
  /-- the number of the next free value -/
  draws : Nat
deriving DecidableEq, Repr

/-- One entry of the history: a bus operation (20_memory.md R82) with the byte it moved, or a change of the
FLAG pin (92_eei_decisions.md D32). -/
inductive Event where
  | memRead (a : Addr) (v : Byte)
  | memWrite (a : Addr) (v : Byte)
  | ioRead (p : IoPort) (v : Byte)
  | ioWrite (p : IoPort) (v : Byte)
  | vectorRead (v : Byte)
  | flag (level : Bool)
deriving DecidableEq, Repr

/-- The stored bytes: addresses strictly rising, no entry equal to what an unlisted address reads as
(`Memory.wf` in Machine/Ops.lean). -/
abbrev Memory := List Host.Cell

/-- The state record of 10_state.md R59, with the system's parameters and the environment's answers. -/
structure State where
  /-- R0, outside the banks (10_state.md R21) -/
  r0 : Byte
  /-- R1 of bank 0 (10_state.md R22) -/
  r1 : Byte
  /-- R2 of bank 0 -/
  r2 : Byte
  /-- R3 of bank 0 -/
  r3 : Byte
  /-- R1 of bank 1 -/
  r1' : Byte
  /-- R2 of bank 1 -/
  r2' : Byte
  /-- R3 of bank 1 -/
  r3' : Byte
  /-- PSU bit 6, the flag latch (10_state.md R30) -/
  f : Bool
  /-- PSU bit 5, interrupt inhibit (10_state.md R31) -/
  ii : Bool
  /-- PSU bits 2-0, the stack pointer (10_state.md R32) -/
  sp : BitVec 3
  /-- the lower program status byte: CC CC IDC RS WC OVF COM C (10_state.md R28) -/
  psl : Byte
  /-- the instruction address register with the page latches (10_state.md R49) -/
  iar : Addr
  /-- the return address stack (10_state.md R44) -/
  ras : Vector Addr 8
  /-- the run state (10_state.md R56) -/
  run : RunState
  /-- the internal interrupt-waiting signal: a request recognised as PAUSE stopped the processor
  (10_state.md R55, 60_exceptions.md R295 item 2) -/
  intWaiting : Bool
  /-- the first instruction byte latched by a RESET taken while PAUSE is low (70_reset_and_hazards.md R323) -/
  prefetch : Option Byte
  /-- memory (20_memory.md R70 to R72) -/
  mem : Memory
  /-- bus operations and FLAG changes, newest first (10_state.md R59, 20_memory.md R82) -/
  history : List Event
  params : Params
  env : Env
deriving DecidableEq, Repr

/-- Why a step stops with a fault. -/
inductive Fault where
  /-- Raised by execution of H'00', which "yields indeterminate results" (30_encoding.md R141). Safe: the
  step has no successor, so nothing can be proved past it. -/
  | indeterminate
  /-- Raised by execution of one of the ten unassigned codes (30_encoding.md R142). Safe, for the same
  reason. -/
  | unassigned (opcode : Byte)
deriving DecidableEq, Repr

/-- Why a step is refused. -/
inductive Refusal where
  /-- An instruction without a meaning in this model, by its mnemonic. Raised by no arm of `exec`. Safe. -/
  | notModelled (mnemonic : String)
deriving DecidableEq, Repr

/-- The machine right after RESET: IAR and II cleared, the interrupt-waiting signal cleared, run = Running
(10_state.md R58). The spec leaves the other registers unspecified; they are zero here by the model's choice
(log entries 5 to 8), memory lists nothing (log entry 4), MEM_MAP and the two flags of `Params` have the
spec's defaults (log entries 3, 18, 19) and the environment's lists are empty (log entries 1 and 2). -/
def State.reset : State where
  r0 := 0
  r1 := 0
  r2 := 0
  r3 := 0
  r1' := 0
  r2' := 0
  r3' := 0
  f := false
  ii := false
  sp := 0
  psl := 0
  iar := 0
  ras := #v[0, 0, 0, 0, 0, 0, 0, 0]
  run := .running
  intWaiting := false
  prefetch := none
  mem := []
  history := []
  params := { memMap := [], rotateOvfSticky := false, indexCarryIntoPage := false }
  env := { boundaries := [], inputs := [], senses := [], vectors := [], draws := 0 }

end Sys2Proof.Machine
end

