-- ==== Sys2Proof/Machine/Ops.lean ====
section
/-! DEFINITION. The named operations over status bits, registers, memory, the environment, the return address
stack and the pins; taking an interrupt (60_exceptions.md R290) and the return from one (46_subroutine.md R256);
RESET (70_reset_and_hazards.md R320, R323). -/

namespace Sys2Proof.Machine

/-! ## The lower program status byte (10_state.md R28) -/

/-- CC, bits 7-6. -/
def Psl.cc (p : Byte) : BitVec 2 := p.extractLsb' 6 2

/-- IDC, bit 5. -/
def Psl.idc (p : Byte) : Bool := p.getLsbD 5

/-- RS, bit 4. -/
def Psl.rs (p : Byte) : Bool := p.getLsbD 4

/-- WC, bit 3. -/
def Psl.wc (p : Byte) : Bool := p.getLsbD 3

/-- OVF, bit 2. -/
def Psl.ovf (p : Byte) : Bool := p.getLsbD 2

/-- COM, bit 1. -/
def Psl.com (p : Byte) : Bool := p.getLsbD 1

/-- C, bit 0. -/
def Psl.c (p : Byte) : Bool := p.getLsbD 0

/-- The byte with the fields of 10_state.md R28. -/
def Psl.pack (cc : BitVec 2) (idc rs wc ovf com c : Bool) : Byte :=
  cc ++ BitVec.ofBool idc ++ BitVec.ofBool rs ++ BitVec.ofBool wc ++ BitVec.ofBool ovf ++
    BitVec.ofBool com ++ BitVec.ofBool c

/-- CC written, the other six bits kept. -/
def Psl.setCC (p : Byte) (cc : BitVec 2) : Byte := cc ++ p.extractLsb' 0 6

/-- CC, IDC, OVF and C written; RS, WC and COM kept. -/
def Psl.setArith (p : Byte) (cc : BitVec 2) (idc ovf c : Bool) : Byte :=
  Psl.pack cc idc (Psl.rs p) (Psl.wc p) ovf (Psl.com p) c

/-! ## Single fields written -/

/-- PSL written whole. -/
def setPsl (p : Byte) (s : State) : State := { s with psl := p }

/-- CC written in the state. -/
def setCC (cc : BitVec 2) (s : State) : State := setPsl (Psl.setCC s.psl cc) s

/-- IAR written, all 15 bits (10_state.md R51). -/
def setIar (a : Addr) (s : State) : State := { s with iar := a }

/-- II written (10_state.md R31). -/
def setInhibit (b : Bool) (s : State) : State := { s with ii := b }

/-- The run state written (10_state.md R56). -/
def setRun (r : RunState) (s : State) : State := { s with run := r }

/-! ## Addresses -/

/-- The page bits, 14-13 (20_memory.md R72). -/
def pageOf (a : Addr) : BitVec 2 := a.extractLsb' 13 2

/-- The address in the page, bits 12-0. -/
def offOf (a : Addr) : Off := a.extractLsb' 0 13

/-- page :: offset. -/
def inPage (page : BitVec 2) (off : Off) : Addr := page ++ off

/-- The next address, with the 13-bit wrap inside the page (10_state.md R50, 30_encoding.md R120; log entry
20). -/
def inc13 (a : Addr) : Addr := inPage (pageOf a) (offOf a + 1)

/-- `off` added to the low 13 bits, the page kept (20_memory.md R74; log entry 20). -/
def addInPage (a : Addr) (off : Off) : Addr := inPage (pageOf a) (offOf a + off)

/-! ## General registers (10_state.md R20 to R23) -/

/-- The register a field names under RS (10_state.md R22). -/
def selectReg (rs : Bool) (r : Reg) : PhysReg :=
  match r, rs with
  | .r0, _ => .r0
  | .r1, false => .r1
  | .r2, false => .r2
  | .r3, false => .r3
  | .r1, true => .r1'
  | .r2, true => .r2'
  | .r3, true => .r3'

/-- The content of one of the seven registers. -/
def getPhys (q : PhysReg) (s : State) : Byte :=
  match q with
  | .r0 => s.r0
  | .r1 => s.r1
  | .r2 => s.r2
  | .r3 => s.r3
  | .r1' => s.r1'
  | .r2' => s.r2'
  | .r3' => s.r3'

/-- One of the seven registers written. -/
def setPhys (q : PhysReg) (v : Byte) (s : State) : State :=
  match q with
  | .r0 => { s with r0 := v }
  | .r1 => { s with r1 := v }
  | .r2 => { s with r2 := v }
  | .r3 => { s with r3 := v }
  | .r1' => { s with r1' := v }
  | .r2' => { s with r2' := v }
  | .r3' => { s with r3' := v }

/-- `R[r]` (00_scope.md R10): the register in view under the current RS. -/
def readReg (r : Reg) (s : State) : Byte := getPhys (selectReg (Psl.rs s.psl) r) s

/-- `R[r] <- v`. -/
def writeReg (r : Reg) (v : Byte) (s : State) : State := setPhys (selectReg (Psl.rs s.psl) r) v s

/-! ## Stored memory -/

/-- What an address without an entry reads as (log entry 4). -/
def unlistedByte : Byte := 0

/-- The stored byte at an address. -/
def Memory.lookup : Memory → Nat → Byte
  | [], _ => unlistedByte
  | (k, v) :: rest, a => if a = k then v else Memory.lookup rest a

/-- An entry put before `rest`, or none where the value is what an unlisted address reads as. -/
def Memory.consEntry (a : Nat) (v : Byte) (rest : Memory) : Memory :=
  if v = unlistedByte then rest else (a, v) :: rest

/-- The byte at an address replaced, keeping the canonical form. -/
def Memory.insert : Memory → Nat → Byte → Memory
  | [], a, v => Memory.consEntry a v []
  | (k, w) :: rest, a, v =>
    if a < k then Memory.consEntry a v ((k, w) :: rest)
    else if a = k then Memory.consEntry a v rest
    else (k, w) :: Memory.insert rest a v

/-- Entries at addresses from `lo` on, strictly rising, below 32,768, none equal to the unlisted byte. -/
def Memory.wfFrom : Nat → Memory → Bool
  | _, [] => true
  | lo, (k, v) :: rest => lo ≤ k && k < 32768 && v ≠ unlistedByte && Memory.wfFrom (k + 1) rest

/-- The canonical form of memory. -/
def Memory.wf (m : Memory) : Bool := Memory.wfFrom 0 m

/-- The byte stored at a 15-bit address. -/
def Memory.read (m : Memory) (a : Addr) : Byte := Memory.lookup m a.toNat

/-- The byte stored at a 15-bit address replaced. -/
def Memory.write (m : Memory) (a : Addr) (v : Byte) : Memory := Memory.insert m a.toNat v

/-- The kind of an address under `MEM_MAP` (20_memory.md R89). -/
def kindAt (map : List Region) (a : Addr) : MemKind :=
  match map with
  | [] => .ram
  | g :: rest => if g.lo ≤ a.toNat ∧ a.toNat ≤ g.hi then g.kind else kindAt rest a

/-! ## The environment (00_scope.md R7, R15) -/

/-- The history with one more event. -/
def logEvent (e : Event) (s : State) : State := { s with history := e :: s.history }

/-- The draw counter advanced: the free value with the old number has been used. -/
def nextDraw (s : State) : State := { s with env := { s.env with draws := s.env.draws + 1 } }

/-- The byte the environment answers to a read of a port or of device memory (92_eei_decisions.md D11). -/
def drawInput (src : InputSource) (s : State) : Byte × State :=
  match s.env.inputs with
  | b :: rest => (b, { s with env := { s.env with inputs := rest } })
  | [] => (Config.freeInput src s.env.draws, nextDraw s)

/-- `SenseSample()`: the level of the SENSE pin now (10_state.md R29). -/
def senseSample (s : State) : Bool × State :=
  match s.env.senses with
  | b :: rest => (b, { s with env := { s.env with senses := rest } })
  | [] => (Config.freeSense s.env.draws, nextDraw s)

/-- The byte on the undriven data bus when nothing answers a read (20_memory.md R89). -/
def drawBus (a : Addr) (s : State) : Byte × State := (Config.freeBus a s.env.draws, nextDraw s)

/-- The pins at this instruction boundary (60_exceptions.md R284): the next entry of the list, all inactive
past its end (log entry 2). -/
def samplePins (s : State) : Pins × State :=
  match s.env.boundaries with
  | p :: rest => (p, { s with env := { s.env with boundaries := rest } })
  | [] => ({ intreq := false, pause := false, reset := false }, s)

/-! ## Bus operations -/

/-- The byte a read of an address receives and the state after the environment has answered (20_memory.md
R89). -/
def memAnswer (a : Addr) (s : State) : Byte × State :=
  match kindAt s.params.memMap a with
  | .ram => (s.mem.read a, s)
  | .rom => (s.mem.read a, s)
  | .device => drawInput (.memory a) s
  | .absent => drawBus a s

/-- `MemRead(a, 1)` (20_memory.md R70). -/
def memRead (a : Addr) (s : State) : Byte × State :=
  ((memAnswer a s).1, logEvent (.memRead a (memAnswer a s).1) (memAnswer a s).2)

/-- What a write does to the stored bytes: Ram stores, every other kind stores nothing (20_memory.md R89). -/
def memStore (a : Addr) (v : Byte) (s : State) : Memory :=
  match kindAt s.params.memMap a with
  | .ram => s.mem.write a v
  | .rom | .device | .absent => s.mem

/-- `MemWrite(a, 1, v)` (20_memory.md R71): the write is driven on the bus whatever stands at the address. -/
def memWrite (a : Addr) (v : Byte) (s : State) : State :=
  logEvent (.memWrite a v) { s with mem := memStore a v s }

/-- `IORead(kind, port)` (20_memory.md R85). -/
def ioRead (p : IoPort) (s : State) : Byte × State :=
  ((drawInput (.port p) s).1, logEvent (.ioRead p (drawInput (.port p) s).1) (drawInput (.port p) s).2)

/-- `IOWrite(kind, port, v)` (20_memory.md R86). -/
def ioWrite (p : IoPort) (v : Byte) (s : State) : State := logEvent (.ioWrite p v) s

/-- The answer to an interrupt vector read and the state after it. -/
def vectorAnswer (s : State) : Byte × State :=
  match s.env.vectors with
  | b :: rest => (b, { s with env := { s.env with vectors := rest } })
  | [] => (Config.freeInput .vector s.env.draws, nextDraw s)

/-- `VectorRead()` (60_exceptions.md R291). -/
def vectorRead (s : State) : Byte × State :=
  ((vectorAnswer s).1, logEvent (.vectorRead (vectorAnswer s).1) (vectorAnswer s).2)

/-- The flag latch written; a change of it is a change of the FLAG pin (10_state.md R30). -/
def writeFlag (b : Bool) (s : State) : State :=
  if b = s.f then s else logEvent (.flag b) { s with f := b }

/-! ## The upper program status byte (44_program_status.md R220) -/

/-- `ReadPSU()` with SENSE at the level given: S, F, II, 0, 0, SP. -/
def psuByte (sense : Bool) (s : State) : Byte :=
  BitVec.ofBool sense ++ BitVec.ofBool s.f ++ BitVec.ofBool s.ii ++ 0#2 ++ s.sp

/-- `WritePSU(b)`: F, II and SP; bits 7, 4 and 3 are ignored (log entries 23, 24, 25). -/
def writePsu (b : Byte) (s : State) : State :=
  writeFlag (b.getLsbD 6) { s with ii := b.getLsbD 5, sp := b.extractLsb' 0 3 }

/-! ## The return address stack (10_state.md R44 to R48) -/

/-- The entry SP = i names. -/
def rasGet (ras : Vector Addr 8) (i : BitVec 3) : Addr := ras[i.toNat]'i.isLt

/-- The entry SP = i names, replaced. -/
def rasSet (ras : Vector Addr 8) (i : BitVec 3) (a : Addr) : Vector Addr 8 := ras.set i.toNat a i.isLt

/-- `push(a)`: SP stepped up modulo 8, then the entry written (10_state.md R45). -/
def push (a : Addr) (s : State) : State :=
  { s with sp := s.sp + 1, ras := rasSet s.ras (s.sp + 1) a }

/-- `IAR <- pop()`: the entry SP names, then SP stepped down modulo 8 (10_state.md R46, 46_subroutine.md
R256). -/
def popToIar (s : State) : State := { s with iar := rasGet s.ras s.sp, sp := s.sp - 1 }

/-! ## Indirect and zero-relative addresses -/

/-- `IndirectAddr(p)`: the 15-bit address held high part first at `p` and its successor in the page
(20_memory.md R76, R77). -/
def indirectAddr (p : Addr) (s : State) : Addr × State :=
  let hi := memRead p s
  let lo := memRead (inc13 p) hi.2
  (hi.1.extractLsb' 0 7 ++ lo.1, lo.2)

/-- The address formed, or the one it points to when the indirect bit is set (30_encoding.md R131). -/
def resolve (i : Bool) (p : Addr) (s : State) : Addr × State :=
  if i then indirectAddr p s else (p, s)

/-- The effective address relative to page 0, byte 0 (30_encoding.md R126). -/
def zeroRelEA (i : Bool) (d : BitVec 7) (s : State) : Addr × State :=
  resolve i (inPage 0#2 (d.signExtend 13)) s

/-! ## Taking an interrupt, and the return -/

/-- The look-ahead fetch of an instruction that an interrupt then replaces (20_memory.md R82, R92): the byte at
IAR is read and given up, unless a RESET during PAUSE has latched it already (log entry 34). -/
def lookAhead (s : State) : State :=
  match s.prefetch with
  | some _ => s
  | none => (memRead s.iar s).2

/-- Acceptance of an interrupt, as one step (60_exceptions.md R290): the look-ahead fetch at the return address
(20_memory.md R82), II set, the vector byte read, IAR (the address of the instruction not executed) pushed,
control at the address the vector byte gives, RUN. The interrupt-waiting signal is served, and a byte fetched
ahead is given up. -/
def acceptInterrupt (s : State) : State :=
  let v := vectorRead (setInhibit true (lookAhead s))
  let ea := zeroRelEA (fieldI v.1) (fieldD v.1) v.2
  { push ea.2.iar ea.2 with iar := ea.1, run := .running, intWaiting := false, prefetch := none }

/-- The return of RETC and RETE (46_subroutine.md R254 to R256); `enable` clears II with it (RETE). -/
def takeReturn (enable : Bool) (s : State) : State :=
  if enable then setInhibit false (popToIar s) else popToIar s

/-! ## RESET -/

/-- What every RESET does (70_reset_and_hazards.md R320): IAR, II and the interrupt-waiting signal cleared;
registers, PSL, F, SP and RAS at free values (`RESET_UNSPEC`; log entry 9); memory untouched. -/
def resetCore (s : State) : State :=
  let n := s.env.draws
  writeFlag (Config.resetFlag n)
    { nextDraw s with
      r0 := Config.resetReg .r0 n
      r1 := Config.resetReg .r1 n
      r2 := Config.resetReg .r2 n
      r3 := Config.resetReg .r3 n
      r1' := Config.resetReg .r1' n
      r2' := Config.resetReg .r2' n
      r3' := Config.resetReg .r3' n
      psl := Config.resetPsl n
      sp := Config.resetSp n
      ras := Config.resetRas n
      ii := false
      iar := 0
      intWaiting := false
      prefetch := none
      run := .running }

/-- A RESET with PAUSE high, or one with PAUSE low, after which the byte at address 0 is fetched and the
processor waits (70_reset_and_hazards.md R320, R323; log entry 32). INTREQ asserted at that same boundary is not
remembered when PAUSE is low: the latched instruction runs first (log entry 46, the model's choice). -/
def applyReset (pause : Bool) (s : State) : State :=
  let t := resetCore s
  if pause then
    let b := memRead 0 t
    { b.2 with run := .pauseWait, prefetch := some b.1 }
  else t

end Sys2Proof.Machine
end

