-- ==== Sys2Proof/Machine/Flags.lean ====
section
/-! DEFINITION. Every flag computation: the condition code of a value and of a comparison, the adder, the
rotates, the mask test and the decimal adjustment. -/

namespace Sys2Proof.Machine

/-- `CCof(v)`: 01 positive, 00 zero, 10 negative (10_state.md R33). -/
def ccOf (v : Byte) : BitVec 2 :=
  if v = 0 then 0b00#2 else if v.msb then 0b10#2 else 0b01#2

/-- `CCcmp(a, b)`: unsigned when COM = 1, two's complement when COM = 0 (10_state.md R34, R41; log entry 40). -/
def ccCmp (com : Bool) (a b : Byte) : BitVec 2 :=
  let x : Int := if com then a.toNat else a.toInt
  let y : Int := if com then b.toNat else b.toInt
  if x > y then 0b01#2 else if x = y then 0b00#2 else 0b10#2

/-- What the adder delivers: the result, the carry out of bit 7, the carry out of bit 3, the overflow. -/
structure AluResult where
  res : Byte
  c : Bool
  idc : Bool
  ovf : Bool
deriving DecidableEq, Repr

/-- The true binary adder (41_arithmetic.md R170): exact sum, then the carries out of bits 7 and 3, and the
overflow when both inputs have one sign and the result the other. -/
def adder (a b : Byte) (cin : Bool) : AluResult :=
  let sum := a.toNat + b.toNat + cin.toNat
  let res := BitVec.ofNat 8 sum
  { res := res
    c := 256 ≤ sum
    idc := 16 ≤ a.toNat % 16 + b.toNat % 16 + cin.toNat
    ovf := a.msb == b.msb && res.msb != a.msb }

/-- `Add(a, b)`: the carry comes in when WC = 1 (41_arithmetic.md R170). -/
def addCore (psl a b : Byte) : AluResult := adder a b (Psl.wc psl && Psl.c psl)

/-- `Sub(a, b)`: the one's complement of b and a carry-in of 1, or of C when WC = 1 (41_arithmetic.md R171;
log entries 16 and 41). -/
def subCore (psl a b : Byte) : AluResult := adder a (~~~b) (!Psl.wc psl || Psl.c psl)

/-- C, IDC, OVF and CC as an addition or subtraction leaves them; RS, WC and COM kept. -/
def pslAfterAlu (psl : Byte) (x : AluResult) : Byte :=
  Psl.setArith psl (ccOf x.res) x.idc x.ovf x.c

/-- OVF after a with-carry rotate: whether bit 7 changed, or that and the old OVF under `ROTATE_OVF_STICKY`
(43_compare_rotate.md R206; log entry 18). -/
def rotateOvf (sticky : Bool) (psl old new : Byte) : Bool :=
  (old.msb != new.msb) || (sticky && Psl.ovf psl)

/-- RRL of a byte: 8 bits when WC = 0, 9 bits through C when WC = 1 (43_compare_rotate.md R204). -/
def rotateLeft (psl v : Byte) : Byte :=
  v.extractLsb' 0 7 ++ BitVec.ofBool (if Psl.wc psl then Psl.c psl else v.getLsbD 7)

/-- RRR of a byte (43_compare_rotate.md R205). -/
def rotateRight (psl v : Byte) : Byte :=
  BitVec.ofBool (if Psl.wc psl then Psl.c psl else v.getLsbD 0) ++ v.extractLsb' 1 7

/-- PSL after a rotate of `old` to `new` that shifted `out` out: CC always; with WC = 1 also C (the bit
shifted out), IDC (new bit 5) and OVF (43_compare_rotate.md R206; log entry 17). -/
def pslAfterRotate (sticky : Bool) (psl old new : Byte) (out : Bool) : Byte :=
  if Psl.wc psl then Psl.setArith psl (ccOf new) (new.getLsbD 5) (rotateOvf sticky psl old new) out
  else Psl.setCC psl (ccOf new)

/-- The result of a test under a mask: 00 when all selected bits are 1, else 10 (44_program_status.md R218,
R222, 48_misc.md R271; log entry 26). -/
def ccTest (x mask : Byte) : BitVec 2 := if x &&& mask = mask then 0b00#2 else 0b10#2

/-- DAR: ten added, modulo 16, to each half whose carry flag is 0, with no carry between the halves
(41_arithmetic.md R180; log entry 14). -/
def decimalAdjust (psl v : Byte) : Byte :=
  let hi : BitVec 4 := v.extractLsb' 4 4
  let lo : BitVec 4 := v.extractLsb' 0 4
  (if Psl.c psl then hi else hi + 10) ++ (if Psl.idc psl then lo else lo + 10)

/-- `MatchT(v)` (45_branch.md R225). -/
def matchTrue (v : BitVec 2) (s : State) : Bool := v == 3#2 || v == Psl.cc s.psl

/-- `MatchF(v)` (45_branch.md R225; log entry 27). -/
def matchFalse (v : BitVec 2) (s : State) : Bool := v != Psl.cc s.psl

end Sys2Proof.Machine
end

