-- ==== Sys2Proof/Machine/Operands.lean ====
section
/-! DEFINITION. Every operand form: the effective addresses of formats R, A, B, ER and EB, the operand
register, and the shapes the families share. IAR holds `next` here (30_encoding.md R120; log entry 42). -/

namespace Sys2Proof.Machine

/-! ## Effective addresses (30_encoding.md R123 to R131) -/

/-- `P` of relative addressing: `next` plus the displacement, modulo 8192 in the page (30_encoding.md R123). -/
def relBase (d : BitVec 7) (s : State) : Addr := addInPage s.iar (d.signExtend 13)

/-- Relative addressing (30_encoding.md R124). -/
def relEA (i : Bool) (d : BitVec 7) (s : State) : Addr × State := resolve i (relBase d s) s

/-- The index register stepped before use (30_encoding.md R128; log entry 22). -/
def stepIndex (ic : IndexControl) (x : Reg) (s : State) : State :=
  match ic with
  | .plain => s
  | .autoInc => writeReg x (readReg x s + 1) s
  | .autoDec => writeReg x (readReg x s - 1) s
  | .indexed => s

/-- Absolute addressing of the non-branch instructions (30_encoding.md R127, R128): the 13-bit address in the
current page, the pointer it names when indirect, then the index added in the page. -/
def absEA (x : Reg) (i : Bool) (ic : IndexControl) (a : Off) (s : State) : Addr × State :=
  let t := stepIndex ic x s
  let b := resolve i (inPage (pageOf s.iar) a) t
  match ic with
  | .plain => b
  | .autoInc | .autoDec | .indexed => (addInPage b.1 ((readReg x t).zeroExtend 13), b.2)

/-- The operand register of format A: the field's register, or R0 when indexed (30_encoding.md R127, R128). -/
def operandReg (x : Reg) (ic : IndexControl) : Reg :=
  match ic with
  | .plain => x
  | .autoInc | .autoDec | .indexed => .r0

/-- Absolute addressing of the branches (30_encoding.md R129). -/
def branchEA (i : Bool) (a : Addr) (s : State) : Addr × State := resolve i a s

/-- A base plus the index of BXA and BSXA, whose carry out of bit 12 reaches the page bits only under
`INDEX_CARRY_INTO_PAGE` (30_encoding.md R130; log entry 19). -/
def indexedTarget (carryIntoPage : Bool) (b : Addr) (x : Byte) : Addr :=
  if carryIntoPage then b + x.zeroExtend 15 else addInPage b (x.zeroExtend 13)

/-- Absolute indexed addressing of BXA and BSXA: register 3 of the selected bank (30_encoding.md R130). -/
def indexedBranchEA (i : Bool) (a : Addr) (s : State) : Addr × State :=
  let b := resolve i a s
  (indexedTarget s.params.indexCarryIntoPage b.1 (readReg .r3 s), b.2)

/-! ## Shapes shared by the families -/

/-- `R[r] <- v; CC <- CCof(v)` (40_load_store.md R167, 42_logical.md R198, 47_io.md R266). -/
def loadReg (r : Reg) (v : Byte) (s : State) : State := setCC (ccOf v) (writeReg r v s)

/-- `R[r] <- Add(R[r], b)` (41_arithmetic.md R170). -/
def addToReg (r : Reg) (b : Byte) (s : State) : State :=
  let x := addCore s.psl (readReg r s) b
  setPsl (pslAfterAlu s.psl x) (writeReg r x.res s)

/-- `R[r] <- Sub(R[r], b)` (41_arithmetic.md R171). -/
def subFromReg (r : Reg) (b : Byte) (s : State) : State :=
  let x := subCore s.psl (readReg r s) b
  setPsl (pslAfterAlu s.psl x) (writeReg r x.res s)

/-- `R[r] <- R[r] and b; CC` (42_logical.md R198). -/
def andReg (r : Reg) (b : Byte) (s : State) : State := loadReg r (readReg r s &&& b) s

/-- `R[r] <- R[r] or b; CC` (42_logical.md R198). -/
def iorReg (r : Reg) (b : Byte) (s : State) : State := loadReg r (readReg r s ||| b) s

/-- `R[r] <- R[r] xor b; CC` (42_logical.md R198). -/
def eorReg (r : Reg) (b : Byte) (s : State) : State := loadReg r (readReg r s ^^^ b) s

/-- `CC <- CCcmp(R[r], b)` (43_compare_rotate.md R207). -/
def compareReg (r : Reg) (b : Byte) (s : State) : State :=
  setCC (ccCmp (Psl.com s.psl) (readReg r s) b) s

/-- A register rotated to `new`, the bit `out` shifted out (43_compare_rotate.md R204, R205). -/
def rotateTo (r : Reg) (new : Byte) (out : Bool) (s : State) : State :=
  setPsl (pslAfterRotate s.params.rotateOvfSticky s.psl (readReg r s) new out) (writeReg r new s)

/-- The operation `f` on the byte that a relative operand names (format R). -/
def withRel (i : Bool) (d : BitVec 7) (f : Byte → State → State) (s : State) : State :=
  let ea := relEA i d s
  let m := memRead ea.1 ea.2
  f m.1 m.2

/-- The operation `f` on the operand register and the byte that an absolute operand names (format A). -/
def withAbs (x : Reg) (i : Bool) (ic : IndexControl) (a : Off) (f : Reg → Byte → State → State)
    (s : State) : State :=
  let ea := absEA x i ic a s
  let m := memRead ea.1 ea.2
  f (operandReg x ic) m.1 m.2

/-- Shape R of the branches: the effective address is formed only when the branch is taken (45_branch.md
R238, R239; log entry 28). -/
def branchRel (taken : Bool) (i : Bool) (d : BitVec 7) (s : State) : State :=
  if taken then setIar (relEA i d s).1 (relEA i d s).2 else s

/-- Shape B of the branches (45_branch.md R238, R239). -/
def branchAbs (taken : Bool) (i : Bool) (a : Addr) (s : State) : State :=
  if taken then setIar (branchEA i a s).1 (branchEA i a s).2 else s

/-- A subroutine branch to an effective address already formed: `push(next); IAR <- EA` (46_subroutine.md
R245). -/
def callTo (ea : Addr × State) : State := setIar ea.1 (push ea.2.iar ea.2)

/-- A relative subroutine branch, taken or not (46_subroutine.md R245). -/
def callRel (taken : Bool) (i : Bool) (d : BitVec 7) (s : State) : State :=
  if taken then callTo (relEA i d s) else s

/-- An absolute subroutine branch, taken or not (46_subroutine.md R245). -/
def callAbs (taken : Bool) (i : Bool) (a : Addr) (s : State) : State :=
  if taken then callTo (branchEA i a s) else s

/-- The read shape of 47_io.md R266. -/
def inputTo (r : Reg) (p : IoPort) (s : State) : State :=
  loadReg r (ioRead p s).1 (ioRead p s).2

end Sys2Proof.Machine
end

