-- ==== Sys2Proof/Machine/Boundary.lean ====
section
/-! DEFINITION. What happens at an instruction boundary (60_exceptions.md R288, R289, R295, R318,
70_reset_and_hazards.md R320 to R323), and the fetch of an instruction (30_encoding.md R120). -/

namespace Sys2Proof.Machine

/-- PAUSE low at a boundary in RUN: the processor waits, and remembers a request that it recognises at the
same boundary (60_exceptions.md R318 (a), R295 item 2; log entry 30). -/
def enterPause (intreq : Bool) (s : State) : State :=
  { s with run := .pauseWait, intWaiting := intreq && !s.ii }

/-- Whether a request is accepted at a boundary where PAUSE plays no part (60_exceptions.md R285, R289). -/
def accepts (intreq : Bool) (s : State) : Bool := intreq && !s.ii

/-- Whether a request is accepted in a HALT wait (60_exceptions.md R317, R318; log entry 31). -/
def acceptsInHalt (p : Pins) (s : State) : Bool :=
  accepts p.intreq s && !(p.pause && Config.pauseHoldsHalt)

/-- What a boundary decides: the step is over in this state, or it runs the next instruction from it. -/
inductive Action where
  | done (s : State)
  | runNext (s : State)
deriving DecidableEq, Repr

/-- PAUSE high again: a request remembered from the boundary that paused is accepted at once; a later one
waits until one instruction has run (60_exceptions.md R295 items 2 and 3). -/
def leavePause (s : State) : Action :=
  if s.intWaiting then .done (acceptInterrupt s) else .runNext (setRun .running s)

/-- The boundary in state `s` with the pins `p` (60_exceptions.md R289, R295). RESET overrides everything, INTREQ
at the same boundary included: with PAUSE high a held request is accepted at the next boundary
(70_reset_and_hazards.md R322); that with PAUSE low it is ignored, and the latched instruction runs before any
later request, is the model's choice (log entry 46). -/
def boundaryWith (p : Pins) (s : State) : Action :=
  if p.reset then .done (applyReset p.pause s)
  else
    match s.run with
    | .running =>
      if p.pause then .done (enterPause p.intreq s)
      else if accepts p.intreq s then .done (acceptInterrupt s)
      else .runNext s
    | .haltWait => if acceptsInHalt p s then .done (acceptInterrupt s) else .done s
    | .pauseWait => if p.pause then .done s else leavePause s

/-- The boundary: the pins are sampled once (60_exceptions.md R288; log entry 33). -/
def boundary (s : State) : Action := boundaryWith (samplePins s).1 (samplePins s).2

/-- One instruction byte read at IAR, IAR advanced in the page (10_state.md R50, 30_encoding.md R120). -/
def fetchByte (s : State) : Byte × State :=
  ((memRead s.iar s).1, setIar (inc13 s.iar) (memRead s.iar s).2)

/-- The first byte: the one latched by a RESET taken during PAUSE, if there is one (70_reset_and_hazards.md
R323), else the byte at IAR. -/
def fetchFirst (s : State) : Byte × State :=
  match s.prefetch with
  | some b => (b, { s with prefetch := none, iar := inc13 s.iar })
  | none => fetchByte s

/-- The instruction at IAR, its bytes read one by one and no more of them than it has, and the state with IAR
at `next` (30_encoding.md R120, R133). -/
def fetchInstr (s : State) : Instr × State :=
  let b0 := fetchFirst s
  match instrLength b0.1 with
  | 1 => (decodeBytes b0.1 0 0, b0.2)
  | 2 =>
    let b1 := fetchByte b0.2
    (decodeBytes b0.1 b1.1 0, b1.2)
  | _ =>
    let b1 := fetchByte b0.2
    let b2 := fetchByte b1.2
    (decodeBytes b0.1 b1.1 b2.1, b2.2)

/-! ## Placing an instruction for the next step (log entry 39) -/

/-- The memory map with Ram at an address that holds no stored byte. -/
def ensureStored (a : Addr) (map : List Region) : List Region :=
  match kindAt map a with
  | .ram | .rom => map
  | .device | .absent => { lo := a.toNat, hi := a.toNat, kind := .ram } :: map

/-- The instruction whose bits are `w` (`nbits` of them given) stored at IAR, and the machine about to fetch
it: RUN, no byte latched, no pin asserted. -/
def placeWord (nbits w : Nat) (s : State) : State :=
  let a0 := s.iar
  let a1 := inc13 a0
  let a2 := inc13 a1
  { s with
    mem := ((s.mem.write a0 (tableByte nbits w 0)).write a1 (tableByte nbits w 1)).write a2
      (tableByte nbits w 2)
    params := { s.params with
      memMap := ensureStored a0 (ensureStored a1 (ensureStored a2 s.params.memMap)) }
    run := .running
    prefetch := none
    env := { s.env with boundaries := [] } }

end Sys2Proof.Machine
end

