-- ==== Sys2Proof/Machine/Arithmetic.lean ====
section
/-! DEFINITION. The meanings of ADD, SUB and DAR (41_arithmetic.md). IAR already holds
`next` when a meaning runs (30_encoding.md R120; log entry 42). -/

namespace Sys2Proof.Machine

/-- ADDZ r (R172). -/
def execAddz (r : Reg) (s : State) : Host.Outcome State Fault Refusal :=
  .next (addToReg .r0 (readReg r s) s)

/-- ADDI,r v (R173). -/
def execAddi (r : Reg) (v : Byte) (s : State) : Host.Outcome State Fault Refusal :=
  .next (addToReg r v s)

/-- ADDR,r (*)a (R174). -/
def execAddr (r : Reg) (i : Bool) (d : BitVec 7) (s : State) : Host.Outcome State Fault Refusal :=
  .next (withRel i d (addToReg r) s)

/-- ADDA,r (*)a(,X) (R175). -/
def execAdda (r : Reg) (i : Bool) (ic : IndexControl) (a : Off) (s : State) :
    Host.Outcome State Fault Refusal :=
  .next (withAbs r i ic a addToReg s)

/-- SUBZ r (R176). -/
def execSubz (r : Reg) (s : State) : Host.Outcome State Fault Refusal :=
  .next (subFromReg .r0 (readReg r s) s)

/-- SUBI,r v (R177). -/
def execSubi (r : Reg) (v : Byte) (s : State) : Host.Outcome State Fault Refusal :=
  .next (subFromReg r v s)

/-- SUBR,r (*)a (R178). -/
def execSubr (r : Reg) (i : Bool) (d : BitVec 7) (s : State) : Host.Outcome State Fault Refusal :=
  .next (withRel i d (subFromReg r) s)

/-- SUBA,r (*)a(,X) (R179). -/
def execSuba (r : Reg) (i : Bool) (ic : IndexControl) (a : Off) (s : State) :
    Host.Outcome State Fault Refusal :=
  .next (withAbs r i ic a subFromReg s)

/-- DAR,r (R180): CC becomes a free value (log entry 13); C, IDC and OVF are kept. -/
def execDar (r : Reg) (s : State) : Host.Outcome State Fault Refusal :=
  .next (setCC (Config.darCC s.env.draws) (nextDraw (writeReg r (decimalAdjust s.psl (readReg r s)) s)))

end Sys2Proof.Machine
end

