-- ==== Sys2Proof/Machine/Branch.lean ====
section
/-! DEFINITION. The meanings of the branches (45_branch.md). IAR already holds
`next` when a meaning runs (30_encoding.md R120; log entry 42). -/

namespace Sys2Proof.Machine

/-- BCTR,v (*)a (R226). -/
def execBctr (v : BitVec 2) (i : Bool) (d : BitVec 7) (s : State) :
    Host.Outcome State Fault Refusal :=
  .next (branchRel (matchTrue v s) i d s)

/-- BCTA,v (*)a (R227). -/
def execBcta (v : BitVec 2) (i : Bool) (a : Addr) (s : State) : Host.Outcome State Fault Refusal :=
  .next (branchAbs (matchTrue v s) i a s)

/-- BCFR,v (*)a (R228). -/
def execBcfr (v : BitVec 2) (i : Bool) (d : BitVec 7) (s : State) :
    Host.Outcome State Fault Refusal :=
  .next (branchRel (matchFalse v s) i d s)

/-- BCFA,v (*)a (R229). -/
def execBcfa (v : BitVec 2) (i : Bool) (a : Addr) (s : State) : Host.Outcome State Fault Refusal :=
  .next (branchAbs (matchFalse v s) i a s)

/-- BRNR,r (*)a (R230). -/
def execBrnr (r : Reg) (i : Bool) (d : BitVec 7) (s : State) : Host.Outcome State Fault Refusal :=
  .next (branchRel (readReg r s != 0) i d s)

/-- BRNA,r (*)a (R231). -/
def execBrna (r : Reg) (i : Bool) (a : Addr) (s : State) : Host.Outcome State Fault Refusal :=
  .next (branchAbs (readReg r s != 0) i a s)

/-- BIRR,r (*)a (R232): the register is stepped first, whether or not the branch is taken. -/
def execBirr (r : Reg) (i : Bool) (d : BitVec 7) (s : State) : Host.Outcome State Fault Refusal :=
  .next (branchRel (readReg r s + 1 != 0) i d (writeReg r (readReg r s + 1) s))

/-- BIRA,r (*)a (R233). -/
def execBira (r : Reg) (i : Bool) (a : Addr) (s : State) : Host.Outcome State Fault Refusal :=
  .next (branchAbs (readReg r s + 1 != 0) i a (writeReg r (readReg r s + 1) s))

/-- BDRR,r (*)a (R234): the register is stepped first, whether or not the branch is taken. -/
def execBdrr (r : Reg) (i : Bool) (d : BitVec 7) (s : State) : Host.Outcome State Fault Refusal :=
  .next (branchRel (readReg r s - 1 != 0) i d (writeReg r (readReg r s - 1) s))

/-- BDRA,r (*)a (R235). -/
def execBdra (r : Reg) (i : Bool) (a : Addr) (s : State) : Host.Outcome State Fault Refusal :=
  .next (branchAbs (readReg r s - 1 != 0) i a (writeReg r (readReg r s - 1) s))

/-- ZBRR (*)a (R236). -/
def execZbrr (i : Bool) (d : BitVec 7) (s : State) : Host.Outcome State Fault Refusal :=
  .next (setIar (zeroRelEA i d s).1 (zeroRelEA i d s).2)

/-- BXA (*)a,X (R237). -/
def execBxa (i : Bool) (a : Addr) (s : State) : Host.Outcome State Fault Refusal :=
  .next (setIar (indexedBranchEA i a s).1 (indexedBranchEA i a s).2)

end Sys2Proof.Machine
end

