-- ==== Sys2Proof/Machine/CompareRotate.lean ====
section
/-! DEFINITION. The meanings of COM, RRL and RRR (43_compare_rotate.md). IAR already holds
`next` when a meaning runs (30_encoding.md R120; log entry 42). -/

namespace Sys2Proof.Machine

/-- COMZ r (R200). -/
def execComz (r : Reg) (s : State) : Host.Outcome State Fault Refusal :=
  .next (compareReg .r0 (readReg r s) s)

/-- COMI,r v (R201). -/
def execComi (r : Reg) (v : Byte) (s : State) : Host.Outcome State Fault Refusal :=
  .next (compareReg r v s)

/-- COMR,r (*)a (R202). -/
def execComr (r : Reg) (i : Bool) (d : BitVec 7) (s : State) : Host.Outcome State Fault Refusal :=
  .next (withRel i d (compareReg r) s)

/-- COMA,r (*)a(,X) (R203). -/
def execComa (r : Reg) (i : Bool) (ic : IndexControl) (a : Off) (s : State) :
    Host.Outcome State Fault Refusal :=
  .next (withAbs r i ic a compareReg s)

/-- RRL,r (R204). -/
def execRrl (r : Reg) (s : State) : Host.Outcome State Fault Refusal :=
  .next (rotateTo r (rotateLeft s.psl (readReg r s)) ((readReg r s).getLsbD 7) s)

/-- RRR,r (R205). -/
def execRrr (r : Reg) (s : State) : Host.Outcome State Fault Refusal :=
  .next (rotateTo r (rotateRight s.psl (readReg r s)) ((readReg r s).getLsbD 0) s)

end Sys2Proof.Machine
end

