-- ==== Sys2Proof/Machine/InputOutput.lean ====
section
/-! DEFINITION. The meanings of the six I/O instructions (47_io.md). IAR already holds
`next` when a meaning runs (30_encoding.md R120; log entry 42). -/

namespace Sys2Proof.Machine

/-- REDD,r (R260). -/
def execRedd (r : Reg) (s : State) : Host.Outcome State Fault Refusal :=
  .next (inputTo r .data s)

/-- REDC,r (R261). -/
def execRedc (r : Reg) (s : State) : Host.Outcome State Fault Refusal :=
  .next (inputTo r .control s)

/-- REDE,r v (R262). -/
def execRede (r : Reg) (port : Byte) (s : State) : Host.Outcome State Fault Refusal :=
  .next (inputTo r (.extended port) s)

/-- WRTD,r (R263). -/
def execWrtd (r : Reg) (s : State) : Host.Outcome State Fault Refusal :=
  .next (ioWrite .data (readReg r s) s)

/-- WRTC,r (R264). -/
def execWrtc (r : Reg) (s : State) : Host.Outcome State Fault Refusal :=
  .next (ioWrite .control (readReg r s) s)

/-- WRTE,r v (R265). -/
def execWrte (r : Reg) (port : Byte) (s : State) : Host.Outcome State Fault Refusal :=
  .next (ioWrite (.extended port) (readReg r s) s)

end Sys2Proof.Machine
end

