-- ==== Sys2Proof/Machine/LoadStore.lean ====
section
/-! DEFINITION. The meanings of LODZ, LODI, LODR, LODA, STRZ, STRR, STRA (40_load_store.md). IAR already holds
`next` when a meaning runs (30_encoding.md R120; log entry 42). -/

namespace Sys2Proof.Machine

/-- LODZ r (40_load_store.md R160). -/
def execLodz (r : Reg) (s : State) : Host.Outcome State Fault Refusal :=
  .next (loadReg .r0 (readReg r s) s)

/-- LODI,r v (R161). -/
def execLodi (r : Reg) (v : Byte) (s : State) : Host.Outcome State Fault Refusal :=
  .next (loadReg r v s)

/-- LODR,r (*)a (R162). -/
def execLodr (r : Reg) (i : Bool) (d : BitVec 7) (s : State) : Host.Outcome State Fault Refusal :=
  .next (withRel i d (loadReg r) s)

/-- LODA,r (*)a(,X) (R163, R168). -/
def execLoda (r : Reg) (i : Bool) (ic : IndexControl) (a : Off) (s : State) :
    Host.Outcome State Fault Refusal :=
  .next (withAbs r i ic a loadReg s)

/-- STRZ r (R164): the only store that writes CC. -/
def execStrz (r : Reg) (s : State) : Host.Outcome State Fault Refusal :=
  .next (loadReg r (readReg .r0 s) s)

/-- STRR,r (*)a (R165). -/
def execStrr (r : Reg) (i : Bool) (d : BitVec 7) (s : State) : Host.Outcome State Fault Refusal :=
  .next (memWrite (relEA i d s).1 (readReg r s) (relEA i d s).2)

/-- STRA,r (*)a(,X) (R166, R168): the byte stored is the operand register after the index step. -/
def execStra (r : Reg) (i : Bool) (ic : IndexControl) (a : Off) (s : State) :
    Host.Outcome State Fault Refusal :=
  let ea := absEA r i ic a s
  .next (memWrite ea.1 (readReg (operandReg r ic) ea.2) ea.2)

end Sys2Proof.Machine
end

