-- ==== Sys2Proof/Machine/Logical.lean ====
section
/-! DEFINITION. The meanings of AND, IOR and EOR (42_logical.md). IAR already holds
`next` when a meaning runs (30_encoding.md R120; log entry 42). -/

namespace Sys2Proof.Machine

/-- ANDZ r (R185). -/
def execAndz (r : Reg) (s : State) : Host.Outcome State Fault Refusal :=
  .next (andReg .r0 (readReg r s) s)

/-- ANDI,r v (R186). -/
def execAndi (r : Reg) (v : Byte) (s : State) : Host.Outcome State Fault Refusal :=
  .next (andReg r v s)

/-- ANDR,r (*)a (R187). -/
def execAndr (r : Reg) (i : Bool) (d : BitVec 7) (s : State) : Host.Outcome State Fault Refusal :=
  .next (withRel i d (andReg r) s)

/-- ANDA,r (*)a(,X) (R188). -/
def execAnda (r : Reg) (i : Bool) (ic : IndexControl) (a : Off) (s : State) :
    Host.Outcome State Fault Refusal :=
  .next (withAbs r i ic a andReg s)

/-- IORZ r (R189). -/
def execIorz (r : Reg) (s : State) : Host.Outcome State Fault Refusal :=
  .next (iorReg .r0 (readReg r s) s)

/-- IORI,r v (R190). -/
def execIori (r : Reg) (v : Byte) (s : State) : Host.Outcome State Fault Refusal :=
  .next (iorReg r v s)

/-- IORR,r (*)a (R191). -/
def execIorr (r : Reg) (i : Bool) (d : BitVec 7) (s : State) : Host.Outcome State Fault Refusal :=
  .next (withRel i d (iorReg r) s)

/-- IORA,r (*)a(,X) (R192). -/
def execIora (r : Reg) (i : Bool) (ic : IndexControl) (a : Off) (s : State) :
    Host.Outcome State Fault Refusal :=
  .next (withAbs r i ic a iorReg s)

/-- EORZ r (R193). -/
def execEorz (r : Reg) (s : State) : Host.Outcome State Fault Refusal :=
  .next (eorReg .r0 (readReg r s) s)

/-- EORI,r v (R194). -/
def execEori (r : Reg) (v : Byte) (s : State) : Host.Outcome State Fault Refusal :=
  .next (eorReg r v s)

/-- EORR,r (*)a (R195). -/
def execEorr (r : Reg) (i : Bool) (d : BitVec 7) (s : State) : Host.Outcome State Fault Refusal :=
  .next (withRel i d (eorReg r) s)

/-- EORA,r (*)a(,X) (R196). -/
def execEora (r : Reg) (i : Bool) (ic : IndexControl) (a : Off) (s : State) :
    Host.Outcome State Fault Refusal :=
  .next (withAbs r i ic a eorReg s)

end Sys2Proof.Machine
end

