-- ==== Sys2Proof/Machine/Misc.lean ====
section
/-! DEFINITION. The meanings of NOP, TMI and HALT (48_misc.md). IAR already holds
`next` when a meaning runs (30_encoding.md R120; log entry 42). -/

namespace Sys2Proof.Machine

/-- NOP (R270). -/
def execNop (s : State) : Host.Outcome State Fault Refusal :=
  .next s

/-- TMI,r v (R271). -/
def execTmi (r : Reg) (v : Byte) (s : State) : Host.Outcome State Fault Refusal :=
  .next (setCC (ccTest (readReg r s) v) s)

/-- HALT (R272). -/
def execHalt (s : State) : Host.Outcome State Fault Refusal :=
  .next (setRun .haltWait s)

end Sys2Proof.Machine
end

