-- ==== Sys2Proof/Machine/ProgramStatus.lean ====
section
/-! DEFINITION. The meanings of the ten program status instructions (44_program_status.md). IAR already holds
`next` when a meaning runs (30_encoding.md R120; log entry 42). -/

namespace Sys2Proof.Machine

/-- LPSU (R210). -/
def execLpsu (s : State) : Host.Outcome State Fault Refusal :=
  .next (writePsu s.r0 s)

/-- LPSL (R211). -/
def execLpsl (s : State) : Host.Outcome State Fault Refusal :=
  .next (setPsl s.r0 s)

/-- SPSU (R212): SENSE is sampled once. -/
def execSpsu (s : State) : Host.Outcome State Fault Refusal :=
  .next (loadReg .r0 (psuByte (senseSample s).1 s) (senseSample s).2)

/-- SPSL (R213): R0 receives the old PSL, CC then comes from R0. -/
def execSpsl (s : State) : Host.Outcome State Fault Refusal :=
  .next (loadReg .r0 s.psl s)

/-- PPSU v (R214): F, II and SP bits set where the mask has ones. -/
def execPpsu (v : Byte) (s : State) : Host.Outcome State Fault Refusal :=
  .next (writePsu (psuByte false s ||| v) s)

/-- PPSL v (R215). -/
def execPpsl (v : Byte) (s : State) : Host.Outcome State Fault Refusal :=
  .next (setPsl (s.psl ||| v) s)

/-- CPSU v (R216). -/
def execCpsu (v : Byte) (s : State) : Host.Outcome State Fault Refusal :=
  .next (writePsu (psuByte false s &&& ~~~v) s)

/-- CPSL v (R217). -/
def execCpsl (v : Byte) (s : State) : Host.Outcome State Fault Refusal :=
  .next (setPsl (s.psl &&& ~~~v) s)

/-- TPSU v (R218): SENSE is sampled once. -/
def execTpsu (v : Byte) (s : State) : Host.Outcome State Fault Refusal :=
  .next (setCC (ccTest (psuByte (senseSample s).1 s) v) (senseSample s).2)

/-- TPSL v (R219): the test reads the old CC. -/
def execTpsl (v : Byte) (s : State) : Host.Outcome State Fault Refusal :=
  .next (setCC (ccTest s.psl v) s)

end Sys2Proof.Machine
end

