-- ==== Sys2Proof/Machine/Subroutine.lean ====
section
/-! DEFINITION. The meanings of the subroutine branches and returns (46_subroutine.md). IAR already holds
`next` when a meaning runs (30_encoding.md R120; log entry 42). -/

namespace Sys2Proof.Machine

/-- BSTR,v (*)a (R246). -/
def execBstr (v : BitVec 2) (i : Bool) (d : BitVec 7) (s : State) :
    Host.Outcome State Fault Refusal :=
  .next (callRel (matchTrue v s) i d s)

/-- BSTA,v (*)a (R247). -/
def execBsta (v : BitVec 2) (i : Bool) (a : Addr) (s : State) : Host.Outcome State Fault Refusal :=
  .next (callAbs (matchTrue v s) i a s)

/-- BSFR,v (*)a (R248). -/
def execBsfr (v : BitVec 2) (i : Bool) (d : BitVec 7) (s : State) :
    Host.Outcome State Fault Refusal :=
  .next (callRel (matchFalse v s) i d s)

/-- BSFA,v (*)a (R249). -/
def execBsfa (v : BitVec 2) (i : Bool) (a : Addr) (s : State) : Host.Outcome State Fault Refusal :=
  .next (callAbs (matchFalse v s) i a s)

/-- BSNR,r (*)a (R250). -/
def execBsnr (r : Reg) (i : Bool) (d : BitVec 7) (s : State) : Host.Outcome State Fault Refusal :=
  .next (callRel (readReg r s != 0) i d s)

/-- BSNA,r (*)a (R251). -/
def execBsna (r : Reg) (i : Bool) (a : Addr) (s : State) : Host.Outcome State Fault Refusal :=
  .next (callAbs (readReg r s != 0) i a s)

/-- ZBSR (*)a (R252). -/
def execZbsr (i : Bool) (d : BitVec 7) (s : State) : Host.Outcome State Fault Refusal :=
  .next (callTo (zeroRelEA i d s))

/-- BSXA (*)a,X (R253). -/
def execBsxa (i : Bool) (a : Addr) (s : State) : Host.Outcome State Fault Refusal :=
  .next (callTo (indexedBranchEA i a s))

/-- RETC,v (R254). -/
def execRetc (v : BitVec 2) (s : State) : Host.Outcome State Fault Refusal :=
  .next (if matchTrue v s then takeReturn false s else s)

/-- RETE,v (R255). -/
def execRete (v : BitVec 2) (s : State) : Host.Outcome State Fault Refusal :=
  .next (if matchTrue v s then takeReturn true s else s)

end Sys2Proof.Machine
end

