-- ==== Sys2Proof/Machine/Unassigned.lean ====
section
/-! DEFINITION. What executing H'00' (30_encoding.md R141) and the ten unassigned codes (R142) does.
No effect is given, so the step faults (log entries 11, 12). -/

namespace Sys2Proof.Machine

/-- H'00' "yields indeterminate results" (30_encoding.md R141): the model's Fault(Indeterminate). -/
def execIndeterminate00 (_s : State) : Host.Outcome State Fault Refusal := .fault .indeterminate

/-- H'10' is assigned to no instruction (30_encoding.md R142): the model's Fault(Unassigned). -/
def execUnassigned10 (_s : State) : Host.Outcome State Fault Refusal := .fault (.unassigned 0x10#8)

/-- H'11' is assigned to no instruction (30_encoding.md R142): the model's Fault(Unassigned). -/
def execUnassigned11 (_s : State) : Host.Outcome State Fault Refusal := .fault (.unassigned 0x11#8)

/-- H'90' is assigned to no instruction (30_encoding.md R142): the model's Fault(Unassigned). -/
def execUnassigned90 (_s : State) : Host.Outcome State Fault Refusal := .fault (.unassigned 0x90#8)

/-- H'91' is assigned to no instruction (30_encoding.md R142): the model's Fault(Unassigned). -/
def execUnassigned91 (_s : State) : Host.Outcome State Fault Refusal := .fault (.unassigned 0x91#8)

/-- H'B6' is assigned to no instruction (30_encoding.md R142): the model's Fault(Unassigned). -/
def execUnassignedB6 (_s : State) : Host.Outcome State Fault Refusal := .fault (.unassigned 0xB6#8)

/-- H'B7' is assigned to no instruction (30_encoding.md R142): the model's Fault(Unassigned). -/
def execUnassignedB7 (_s : State) : Host.Outcome State Fault Refusal := .fault (.unassigned 0xB7#8)

/-- H'C4' is assigned to no instruction (30_encoding.md R142): the model's Fault(Unassigned). -/
def execUnassignedC4 (_s : State) : Host.Outcome State Fault Refusal := .fault (.unassigned 0xC4#8)

/-- H'C5' is assigned to no instruction (30_encoding.md R142): the model's Fault(Unassigned). -/
def execUnassignedC5 (_s : State) : Host.Outcome State Fault Refusal := .fault (.unassigned 0xC5#8)

/-- H'C6' is assigned to no instruction (30_encoding.md R142): the model's Fault(Unassigned). -/
def execUnassignedC6 (_s : State) : Host.Outcome State Fault Refusal := .fault (.unassigned 0xC6#8)

/-- H'C7' is assigned to no instruction (30_encoding.md R142): the model's Fault(Unassigned). -/
def execUnassignedC7 (_s : State) : Host.Outcome State Fault Refusal := .fault (.unassigned 0xC7#8)

end Sys2Proof.Machine
end

