-- ==== Sys2Proof/Machine/Dispatch.lean ====
section
/-! DEFINITION. Which meaning each instruction has: one arm per row of spec/opcode_table.json. -/

namespace Sys2Proof.Machine

-- the meaning of an instruction, applied to the state after its bytes were fetched
def exec (i : Instr) (s : State) : Host.Outcome State Fault Refusal :=
  match i with
  | .lodz r => Sys2Proof.Machine.execLodz r s
  | .lodi r v => Sys2Proof.Machine.execLodi r v s
  | .lodr r ind d => Sys2Proof.Machine.execLodr r ind d s
  | .loda r ind ic a => Sys2Proof.Machine.execLoda r ind ic a s
  | .strz r => Sys2Proof.Machine.execStrz r s
  | .strr r ind d => Sys2Proof.Machine.execStrr r ind d s
  | .stra r ind ic a => Sys2Proof.Machine.execStra r ind ic a s
  | .addz r => Sys2Proof.Machine.execAddz r s
  | .addi r v => Sys2Proof.Machine.execAddi r v s
  | .addr r ind d => Sys2Proof.Machine.execAddr r ind d s
  | .adda r ind ic a => Sys2Proof.Machine.execAdda r ind ic a s
  | .subz r => Sys2Proof.Machine.execSubz r s
  | .subi r v => Sys2Proof.Machine.execSubi r v s
  | .subr r ind d => Sys2Proof.Machine.execSubr r ind d s
  | .suba r ind ic a => Sys2Proof.Machine.execSuba r ind ic a s
  | .dar r => Sys2Proof.Machine.execDar r s
  | .andz r => Sys2Proof.Machine.execAndz r s
  | .andi r v => Sys2Proof.Machine.execAndi r v s
  | .andr r ind d => Sys2Proof.Machine.execAndr r ind d s
  | .anda r ind ic a => Sys2Proof.Machine.execAnda r ind ic a s
  | .iorz r => Sys2Proof.Machine.execIorz r s
  | .iori r v => Sys2Proof.Machine.execIori r v s
  | .iorr r ind d => Sys2Proof.Machine.execIorr r ind d s
  | .iora r ind ic a => Sys2Proof.Machine.execIora r ind ic a s
  | .eorz r => Sys2Proof.Machine.execEorz r s
  | .eori r v => Sys2Proof.Machine.execEori r v s
  | .eorr r ind d => Sys2Proof.Machine.execEorr r ind d s
  | .eora r ind ic a => Sys2Proof.Machine.execEora r ind ic a s
  | .comz r => Sys2Proof.Machine.execComz r s
  | .comi r v => Sys2Proof.Machine.execComi r v s
  | .comr r ind d => Sys2Proof.Machine.execComr r ind d s
  | .coma r ind ic a => Sys2Proof.Machine.execComa r ind ic a s
  | .rrl r => Sys2Proof.Machine.execRrl r s
  | .rrr r => Sys2Proof.Machine.execRrr r s
  | .lpsu => Sys2Proof.Machine.execLpsu s
  | .lpsl => Sys2Proof.Machine.execLpsl s
  | .spsu => Sys2Proof.Machine.execSpsu s
  | .spsl => Sys2Proof.Machine.execSpsl s
  | .ppsu v => Sys2Proof.Machine.execPpsu v s
  | .ppsl v => Sys2Proof.Machine.execPpsl v s
  | .cpsu v => Sys2Proof.Machine.execCpsu v s
  | .cpsl v => Sys2Proof.Machine.execCpsl v s
  | .tpsu v => Sys2Proof.Machine.execTpsu v s
  | .tpsl v => Sys2Proof.Machine.execTpsl v s
  | .bctr v ind d => Sys2Proof.Machine.execBctr v ind d s
  | .bcta v ind a => Sys2Proof.Machine.execBcta v ind a s
  | .bcfr v ind d => Sys2Proof.Machine.execBcfr v ind d s
  | .bcfa v ind a => Sys2Proof.Machine.execBcfa v ind a s
  | .brnr r ind d => Sys2Proof.Machine.execBrnr r ind d s
  | .brna r ind a => Sys2Proof.Machine.execBrna r ind a s
  | .birr r ind d => Sys2Proof.Machine.execBirr r ind d s
  | .bira r ind a => Sys2Proof.Machine.execBira r ind a s
  | .bdrr r ind d => Sys2Proof.Machine.execBdrr r ind d s
  | .bdra r ind a => Sys2Proof.Machine.execBdra r ind a s
  | .zbrr ind d => Sys2Proof.Machine.execZbrr ind d s
  | .bxa ind a => Sys2Proof.Machine.execBxa ind a s
  | .bstr v ind d => Sys2Proof.Machine.execBstr v ind d s
  | .bsta v ind a => Sys2Proof.Machine.execBsta v ind a s
  | .bsfr v ind d => Sys2Proof.Machine.execBsfr v ind d s
  | .bsfa v ind a => Sys2Proof.Machine.execBsfa v ind a s
  | .bsnr r ind d => Sys2Proof.Machine.execBsnr r ind d s
  | .bsna r ind a => Sys2Proof.Machine.execBsna r ind a s
  | .zbsr ind d => Sys2Proof.Machine.execZbsr ind d s
  | .bsxa ind a => Sys2Proof.Machine.execBsxa ind a s
  | .retc v => Sys2Proof.Machine.execRetc v s
  | .rete v => Sys2Proof.Machine.execRete v s
  | .redd r => Sys2Proof.Machine.execRedd r s
  | .redc r => Sys2Proof.Machine.execRedc r s
  | .rede r port => Sys2Proof.Machine.execRede r port s
  | .wrtd r => Sys2Proof.Machine.execWrtd r s
  | .wrtc r => Sys2Proof.Machine.execWrtc r s
  | .wrte r port => Sys2Proof.Machine.execWrte r port s
  | .nop => Sys2Proof.Machine.execNop s
  | .tmi r v => Sys2Proof.Machine.execTmi r v s
  | .halt => Sys2Proof.Machine.execHalt s
  | .indeterminate00 => Sys2Proof.Machine.execIndeterminate00 s
  | .unassigned10 => Sys2Proof.Machine.execUnassigned10 s
  | .unassigned11 => Sys2Proof.Machine.execUnassigned11 s
  | .unassigned90 => Sys2Proof.Machine.execUnassigned90 s
  | .unassigned91 => Sys2Proof.Machine.execUnassigned91 s
  | .unassignedB6 => Sys2Proof.Machine.execUnassignedB6 s
  | .unassignedB7 => Sys2Proof.Machine.execUnassignedB7 s
  | .unassignedC4 => Sys2Proof.Machine.execUnassignedC4 s
  | .unassignedC5 => Sys2Proof.Machine.execUnassignedC5 s
  | .unassignedC6 => Sys2Proof.Machine.execUnassignedC6 s
  | .unassignedC7 => Sys2Proof.Machine.execUnassignedC7 s

end Sys2Proof.Machine
end

