-- ==== Sys2Proof/Machine/Step.lean ====
section
/-! DEFINITION. The step: the boundary, then the fetch and the execution of one instruction (00_scope.md R15,
60_exceptions.md R289). -/

namespace Sys2Proof.Machine

/-- The next instruction fetched and executed. -/
def runInstruction (s : State) : Host.Outcome State Fault Refusal :=
  exec (fetchInstr s).1 (fetchInstr s).2

/-- One step of the processor: take a RESET, accept an interrupt, stay in WAIT, or execute one instruction. -/
def step (s : State) : Host.Outcome State Fault Refusal :=
  match boundary s with
  | .done t => .next t
  | .runNext t => runInstruction t

/-- The state whose very next step fetches and runs the instruction with the bits `w`. -/
def State.withFetchWord (s : State) (nbits w : Nat) : State := placeWord nbits w s

end Sys2Proof.Machine
end

