-- ==== Sys2Proof/Machine/Bus.lean ====
section
/-! DEFINITION. What the outside sees: the output pins as functions of the state, the levels of the bus signals
in each operation, and the output events (10_state.md R57, 20_memory.md R85 to R87, 92_eei_decisions.md D32). -/

namespace Sys2Proof.Machine

/-- The FLAG pin (10_state.md R30): equal to F in every run state. -/
def flagPin (s : State) : Bool := s.f

/-- The RUN/WAIT pin: high in RUN, low in WAIT (10_state.md R56). -/
def runPin (s : State) : Bool := s.run == .running

/-- The bus signals during an operation, true meaning high; `none` is a level or a group of lines the spec
calls "don't care", not valid or not stated (log entry 43). -/
structure BusSignals where
  /-- M/IO: high for a memory operation -/
  mIO : Bool
  /-- R/W: high for a write -/
  rW : Bool
  /-- OPREQ: high, an external operation is requested -/
  opreq : Bool
  /-- WRP: whether its positive pulse comes in the middle of the operation -/
  wrp : Bool
  /-- ADR13 in a memory operation, E/NE in an I/O operation -/
  adr13 : Option Bool
  /-- ADR14 in a memory operation, D/C in an I/O operation -/
  adr14 : Option Bool
  /-- ADR12 to ADR8 -/
  adrMid : Option (BitVec 5)
  /-- ADR7 to ADR0 -/
  adrLow : Option Byte
  /-- INTACK -/
  intack : Bool
  /-- DBUS7 to DBUS0, "true signals" -/
  dbus : Byte
deriving DecidableEq, Repr

/-- The signals of a memory operation (10_state.md R57, 20_memory.md R70, R71, R87). -/
def memorySignals (write : Bool) (a : Addr) (v : Byte) : BusSignals where
  mIO := true
  rW := write
  opreq := true
  wrp := write
  adr13 := some (a.getLsbD 13)
  adr14 := some (a.getLsbD 14)
  adrMid := some (a.extractLsb' 8 5)
  adrLow := some (a.extractLsb' 0 8)
  intack := false
  dbus := v

/-- The signals of an I/O operation (10_state.md R57, 20_memory.md R85, R86, R87). -/
def ioSignals (write : Bool) (p : IoPort) (v : Byte) : BusSignals where
  mIO := false
  rW := write
  opreq := true
  wrp := write
  adr13 :=
    match p with
    | .data | .control => some false
    | .extended _ => some true
  adr14 :=
    match p with
    | .data => some true
    | .control => some false
    | .extended _ => none
  adrMid := none
  adrLow :=
    match p with
    | .data | .control => none
    | .extended port => some port
  intack := false
  dbus := v

/-- The signals of an event of the history; a change of the FLAG pin is no bus operation (20_memory.md R87,
60_exceptions.md R291). -/
def Event.signals : Event → Option BusSignals
  | .memRead a v => some (memorySignals false a v)
  | .memWrite a v => some (memorySignals true a v)
  | .ioRead p v => some (ioSignals false p v)
  | .ioWrite p v => some (ioSignals true p v)
  | .vectorRead v =>
    some { ioSignals false .data v with adr13 := none, adr14 := none, intack := true }
  | .flag _ => none

/-- Whether a line is high in the operation under way; without an operation OPREQ, WRP and INTACK are low, and
the other lines are not valid (10_state.md R57, 20_memory.md R87). -/
def lineHigh (line : BusSignals → Bool) (operation : Option Event) : Bool :=
  match operation.bind Event.signals with
  | some b => line b
  | none => false

/-- The OPREQ pin (10_state.md R57, pin 24). -/
def opreqPin (operation : Option Event) : Bool := lineHigh (·.opreq) operation

/-- Whether the WRP pin gives its pulse (10_state.md R57, pin 22). -/
def wrpPin (operation : Option Event) : Bool := lineHigh (·.wrp) operation

/-- The INTACK pin (10_state.md R57, pin 34). -/
def intackPin (operation : Option Event) : Bool := lineHigh (·.intack) operation

/-- Whether an event is an output of the program (20_memory.md R86, R89, 92_eei_decisions.md D16, D32). -/
def Event.isOutput (map : List Region) : Event → Bool
  | .ioWrite _ _ | .flag _ => true
  | .memWrite a _ => kindAt map a == .device
  | .memRead _ _ | .ioRead _ _ | .vectorRead _ => false

/-- The output events in program order (20_memory.md R86, 10_state.md R59). -/
def outputs (s : State) : List Event := (s.history.filter (Event.isOutput s.params.memMap)).reverse

end Sys2Proof.Machine
end

