-- ==== Sys2Proof/Safety.lean ====
section
/-! DEFINITION. The terms statements are written in: what a step keeps, where code stands in memory, the
invariant of the machine, and what a safe step is. -/

namespace Sys2Proof.Machine

/-! ## What is kept from `s` to `t` -/

/-- Each of the seven registers outside `ws` is as before. -/
def RegsKept (ws : List PhysReg) (s t : State) : Prop := ∀ q, q ∉ ws → getPhys q t = getPhys q s

/-- Every PSL bit that `mask` does not select is as before. -/
def PslKept (mask : Byte) (s t : State) : Prop := t.psl &&& ~~~mask = s.psl &&& ~~~mask

/-- The PSL bits CC (10_state.md R28). -/
def ccMask : Byte := 0xC0#8

/-- The PSL bits CC, IDC, OVF and C (10_state.md R28). -/
def arithMask : Byte := 0xE5#8

/-- F, II and SP are as before. -/
def PsuKept (s t : State) : Prop := t.f = s.f ∧ t.ii = s.ii ∧ t.sp = s.sp

/-- The return address stack, the run state, the internal latches and the system's parameters are as before. -/
def ControlKept (s t : State) : Prop :=
  t.ras = s.ras ∧ t.run = s.run ∧ t.intWaiting = s.intWaiting ∧ t.prefetch = s.prefetch ∧
    t.params = s.params

/-- Every address reads the byte it read before. -/
def BytesKept (s t : State) : Prop := ∀ a : Addr, t.mem.read a = s.mem.read a

/-- Every address other than `b` reads the byte it read before. -/
def BytesKeptBut (b : Addr) (s t : State) : Prop := ∀ a : Addr, a ≠ b → t.mem.read a = s.mem.read a

/-- The history and the environment of `t` are those of `u`: the bus operations of `u` have happened and no
others. -/
def BusAs (u t : State) : Prop := t.history = u.history ∧ t.env = u.env

/-- `t` is `s` but for the history and the environment: only bus operations lie between them. -/
def BusOnly (s t : State) : Prop := t = { s with history := t.history, env := t.env }

/-- The frame of an instruction that stores nothing: registers outside `ws`, PSL bits outside `mask`, PSU, the
stack, the control state and every byte of memory are as before. IAR and the bus are said beside it. -/
def Frame (ws : List PhysReg) (mask : Byte) (s t : State) : Prop :=
  RegsKept ws s t ∧ PslKept mask s t ∧ PsuKept s t ∧ ControlKept s t ∧ BytesKept s t

/-- The register a field names in `s` (10_state.md R22). -/
def regOf (r : Reg) (s : State) : PhysReg := selectReg (Psl.rs s.psl) r

/-- The index register, where the index control steps it (30_encoding.md R128). -/
def steppedRegs (r : Reg) (ic : IndexControl) (s : State) : List PhysReg :=
  match ic with
  | .plain | .indexed => []
  | .autoInc | .autoDec => [regOf r s]

/-- What a step of the index register makes of its value (30_encoding.md R128). -/
def steppedValue (ic : IndexControl) (x : Byte) : Byte :=
  match ic with
  | .plain | .indexed => x
  | .autoInc => x + 1
  | .autoDec => x - 1

/-! ## What an instruction has done from `s` to `t` -/

/-- The index register, where it is stepped and is not `q`, holds the stepped value. -/
def IndexStepped (r : Reg) (ic : IndexControl) (q : PhysReg) (s t : State) : Prop :=
  regOf r s ≠ q → getPhys (regOf r s) t = steppedValue ic (getPhys (regOf r s) s)

/-- Register `q` holds `v`, CC says its sign, IAR stays at `next`, the bus operations are those of `u`, and
nothing else but the registers `ws` has changed (10_state.md R33, R36). -/
def Loaded (q : PhysReg) (v : Byte) (ws : List PhysReg) (u s t : State) : Prop :=
  getPhys q t = v ∧ Psl.cc t.psl = ccOf v ∧ t.iar = s.iar ∧ Frame ws ccMask s t ∧ BusAs u t

/-- Register `q` and the flags C, IDC, OVF and CC hold what the adder delivered, and nothing else but the
registers `ws` has changed (41_arithmetic.md R170, R171). -/
def AluDone (q : PhysReg) (x : AluResult) (ws : List PhysReg) (u s t : State) : Prop :=
  getPhys q t = x.res ∧ Psl.cc t.psl = ccOf x.res ∧ Psl.c t.psl = x.c ∧ Psl.idc t.psl = x.idc ∧
    Psl.ovf t.psl = x.ovf ∧ t.iar = s.iar ∧ Frame ws arithMask s t ∧ BusAs u t

/-- CC holds `cc`, and nothing else but the registers `ws` has changed. -/
def Tested (cc : BitVec 2) (ws : List PhysReg) (u s t : State) : Prop :=
  Psl.cc t.psl = cc ∧ t.iar = s.iar ∧ Frame ws ccMask s t ∧ BusAs u t

/-- A branch: IAR at the effective address when taken, else at `next` with no pointer read; nothing else but
the registers `ws` has changed (45_branch.md R238). -/
def BranchDone (taken : Prop) (ea : Addr × State) (ws : List PhysReg) (s t : State) : Prop :=
  (taken → t.iar = ea.1 ∧ BusAs ea.2 t) ∧ (¬taken → t.iar = s.iar ∧ BusAs s t) ∧ Frame ws 0#8 s t

/-- What a subroutine branch or a return keeps: registers, PSL, F, the control state but for the stack, and
every byte of memory. -/
def LinkFrame (s t : State) : Prop :=
  RegsKept [] s t ∧ t.psl = s.psl ∧ t.f = s.f ∧ t.run = s.run ∧ t.intWaiting = s.intWaiting ∧
    t.prefetch = s.prefetch ∧ t.params = s.params ∧ BytesKept s t

/-- The address `a` has been pushed: SP one up, the entry it names holds `a`, the others are as before
(10_state.md R45). -/
def Pushed (a : Addr) (s t : State) : Prop :=
  t.sp = s.sp + 1 ∧ rasGet t.ras (s.sp + 1) = a ∧
    ∀ j, j ≠ s.sp + 1 → rasGet t.ras j = rasGet s.ras j

/-- A subroutine branch: `next` pushed and IAR at the effective address when taken, else IAR at `next`, nothing
pushed and no pointer read (46_subroutine.md R245). -/
def CallDone (taken : Prop) (ea : Addr × State) (s t : State) : Prop :=
  (taken → t.iar = ea.1 ∧ Pushed s.iar s t ∧ BusAs ea.2 t) ∧
    (¬taken → t.iar = s.iar ∧ t.sp = s.sp ∧ t.ras = s.ras ∧ BusAs s t) ∧ t.ii = s.ii ∧ LinkFrame s t

/-! ## Classes of instructions -/

/-- STRR and STRA (20_memory.md R71). -/
def isStore : Instr → Bool
  | .strr _ _ _ | .stra _ _ _ _ => true
  | _ => false

/-- The subroutine branches (46_subroutine.md R246 to R253). -/
def isCall : Instr → Bool
  | .bstr _ _ _ | .bsta _ _ _ | .bsfr _ _ _ | .bsfa _ _ _ | .bsnr _ _ _ | .bsna _ _ _ | .zbsr _ _
  | .bsxa _ _ => true
  | _ => false

/-- The branches, subroutine branches and returns: what may move IAR from `next` (10_state.md R51). -/
def isTransfer : Instr → Bool
  | .bctr _ _ _ | .bcta _ _ _ | .bcfr _ _ _ | .bcfa _ _ _ | .brnr _ _ _ | .brna _ _ _ | .birr _ _ _
  | .bira _ _ _ | .bdrr _ _ _ | .bdra _ _ _ | .zbrr _ _ | .bxa _ _ | .retc _ | .rete _ => true
  | i => isCall i

/-- The relative branches and subroutine branches without the indirect bit (45_branch.md R238). -/
def isRelativeDirect : Instr → Bool
  | .bctr _ i _ | .bcfr _ i _ | .brnr _ i _ | .birr _ i _ | .bdrr _ i _ | .bstr _ i _ | .bsfr _ i _
  | .bsnr _ i _ => !i
  | _ => false

/-- LPSL, PPSL and CPSL (10_state.md R23). -/
def writesPsl : Instr → Bool
  | .lpsl | .ppsl _ | .cpsl _ => true
  | _ => false

/-- The writers of C, IDC and OVF: add, subtract, a rotate when WC = 1, LPSL, PPSL and CPSL (10_state.md
R28). -/
def writesArith (psl : Byte) : Instr → Bool
  | .addz _ | .addi _ _ | .addr _ _ _ | .adda _ _ _ _ | .subz _ | .subi _ _ | .subr _ _ _
  | .suba _ _ _ _ => true
  | .rrl _ | .rrr _ => Psl.wc psl
  | i => writesPsl i

/-- The instructions that leave CC as it was (10_state.md R36). -/
def keepsCC : Instr → Bool
  | .strr _ _ _ | .stra _ _ _ _ | .wrtd _ | .wrtc _ | .wrte _ _ | .lpsu | .ppsu _ | .cpsu _ | .nop
  | .halt => true
  | i => isTransfer i

/-- An outcome with its state changed. -/
def mapState (f : State → State) : Host.Outcome State Fault Refusal → Host.Outcome State Fault Refusal
  | .next t => .next (f t)
  | .fault r => .fault r
  | .refused r => .refused r

/-- Two decimal digits, one in each half of a byte (41_arithmetic.md R181). -/
def packedDecimal (n : Nat) : Byte := BitVec.ofNat 8 (16 * (n / 10) + n % 10)

/-! ## Code in memory -/

/-- The address `n` bytes on, in the page (30_encoding.md R120). -/
def advance : Nat → Addr → Addr
  | 0, a => a
  | n + 1, a => advance n (inc13 a)

/-- The bytes `bs` are stored from `a` on, in RAM or ROM. -/
def CodeAt (s : State) : Addr → List Byte → Prop
  | _, [] => True
  | a, b :: bs =>
    (kindAt s.params.memMap a = .ram ∨ kindAt s.params.memMap a = .rom) ∧ s.mem.read a = b ∧
      CodeAt s (inc13 a) bs

/-- The history after the bytes `bs` have been read from `a` on. -/
def fetchLog : Addr → List Byte → List Event → List Event
  | _, [], h => h
  | a, b :: bs, h => fetchLog (inc13 a) bs (.memRead a b :: h)

/-! ## Invariant and safety -/

/-- The invariant: memory has its canonical form; a byte latched by a RESET during PAUSE is held only in that
wait and belongs to address 0 (70_reset_and_hazards.md R323); the interrupt-waiting signal is up only in a PAUSE
wait and only with interrupts enabled (60_exceptions.md R285, R295). -/
def Inv (s : State) : Prop :=
  s.mem.wf = true ∧ (s.prefetch.isSome = true → s.run = .pauseWait ∧ s.iar = 0) ∧
    (s.intWaiting = true → s.run = .pauseWait ∧ s.ii = false)

/-- The step has a successor. -/
def SafeStep (s : State) : Prop := ∃ t, step s = .next t

/-- The states that runs from reset reach, with the environment of the start free. -/
inductive Reachable : State → Prop where
  | start (e : Env) (p : Params) (m : Memory) (h : m.wf = true) :
      Reachable { State.reset with env := e, params := p, mem := m }
  | next (s t : State) (h : Reachable s) (e : step s = .next t) : Reachable t

/-- The fault the spec's model outcome gives an unassigned code (30_encoding.md R141, R142). -/
def faultOf (b0 : Byte) : Fault := if b0 = 0 then .indeterminate else .unassigned b0

end Sys2Proof.Machine
end

