-- ==== Sys2Proof/Certificates/Slice0/Obligations.lean ====
section
/-! DEFINITION. The statements for the provers. A statement that rests on a choice of this model names its log
entry (notes/assumptions). -/

section

open Sys2Proof Sys2Proof.Machine

/-! ## Reset, interrupts, wait states -/

/-- After reset: IAR 0, II clear, no interrupt waiting, running (10_state.md R58). -/
def Obligations.ResetStateStartsAtZero : Prop :=
  State.reset.iar = 0 ∧ State.reset.ii = false ∧ State.reset.intWaiting = false ∧
    State.reset.run = .running

/-- RESET at any boundary, in any state (70_reset_and_hazards.md R320, R323). Registers, PSL, F, SP and RAS are
left free: nothing is said of them (log entry 9). The byte latched with PAUSE low follows log entry 32. -/
def Obligations.ResetFromAnyState : Prop :=
  ∀ s : State, (samplePins s).1.reset = true →
    ∃ t, step s = .next t ∧ t.iar = 0 ∧ t.ii = false ∧ t.intWaiting = false ∧ BytesKept s t ∧
      t.params = s.params ∧
      ((samplePins s).1.pause = false → t.run = .running ∧ t.prefetch = none) ∧
      ((samplePins s).1.pause = true →
        t.run = .pauseWait ∧ ∃ b, t.prefetch = some b ∧
          (kindAt s.params.memMap 0 = .ram ∨ kindAt s.params.memMap 0 = .rom → b = s.mem.read 0))

/-- Acceptance of an interrupt, running or in a HALT wait, as one step (60_exceptions.md R289, R290, R292, R317):
the byte at the return address is read once and given up, unless one is latched (20_memory.md R82), then the
vector byte; what is saved, what changes and what is left unchanged. The model's choices: one pin sample decides
(log entry 33), the address pushed out of a HALT wait (log entry 29), the vector's layout and the page of its
pointer (log entry 21), the step in which the look-ahead read stands (log entry 34). -/
def Obligations.InterruptAcceptance : Prop :=
  ∀ s : State, (samplePins s).1 = { intreq := true, pause := false, reset := false } →
    s.ii = false → s.run ≠ .pauseWait →
    let sampled := (samplePins s).2
    let ahead := if s.prefetch = none then (memRead s.iar sampled).2 else sampled
    let v := vectorRead (setInhibit true ahead)
    let ea := zeroRelEA (v.1.getLsbD 7) (v.1.extractLsb' 0 7) v.2
    ∃ t, step s = .next t ∧ t.ii = true ∧ Pushed s.iar s t ∧ t.iar = ea.1 ∧ t.run = .running ∧
      BusAs ea.2 t ∧ RegsKept [] s t ∧ t.psl = s.psl ∧ t.f = s.f ∧ BytesKept s t ∧
      t.params = s.params ∧
      ∃ p : Addr, (p.toNat : Int) = (v.1.extractLsb' 0 7).toInt % 8192 ∧
        (v.1.getLsbD 7 = false → t.iar = p) ∧
        (v.1.getLsbD 7 = true → t.iar = (indirectAddr p v.2).1)

/-- RETE right after an acceptance gives back IAR and SP and clears II; nothing else was saved or is restored
(60_exceptions.md R290, R293, 46_subroutine.md R255). -/
def Obligations.InterruptThenReturn : Prop :=
  ∀ s : State, ∃ t, exec (.rete 3#2) (acceptInterrupt s) = .next t ∧ t.iar = s.iar ∧ t.sp = s.sp ∧
    t.ii = false ∧ t.psl = s.psl ∧ t.f = s.f ∧ RegsKept [] s t ∧ BytesKept s t ∧
    ∀ j, j ≠ s.sp + 1 → rasGet t.ras j = rasGet s.ras j

/-- The wait states hold: a HALT wait without an acceptable request, and a PAUSE wait while PAUSE is low; only
the pin sample is consumed (60_exceptions.md R289, R318, 92_eei_decisions.md D38; log entry 29). -/
def Obligations.WaitStatesHold : Prop :=
  ∀ s : State, (samplePins s).1.reset = false →
    (s.run = .haltWait → s.ii = true ∨ (samplePins s).1.intreq = false → step s = .next (samplePins s).2) ∧
      (s.run = .pauseWait → (samplePins s).1.pause = true → step s = .next (samplePins s).2)

/-- PAUSE low at a boundary stops a running processor between instructions and keeps everything; a request that
II lets through is remembered. PAUSE high again: a remembered request is accepted before any instruction;
otherwise the next instruction runs, whatever INTREQ says (60_exceptions.md R318, R295 items 2 and 3; log entry
30). -/
def Obligations.PauseStopsAndResumes : Prop :=
  ∀ s : State, (samplePins s).1.reset = false →
    (s.run = .running → (samplePins s).1.pause = true →
      ∃ t, step s = .next t ∧ t.run = .pauseWait ∧
        t.intWaiting = ((samplePins s).1.intreq && !s.ii) ∧ RegsKept [] s t ∧ t.psl = s.psl ∧
        PsuKept s t ∧ t.iar = s.iar ∧ t.ras = s.ras ∧ t.mem = s.mem ∧ t.history = s.history ∧
        t.prefetch = s.prefetch ∧ t.params = s.params) ∧
    (s.run = .pauseWait → (samplePins s).1.pause = false →
      (s.intWaiting = true → step s = .next (acceptInterrupt (samplePins s).2)) ∧
        (s.intWaiting = false → step s = runInstruction (setRun .running (samplePins s).2)))

/-! ## The step and the decoder -/

/-- The instruction that the bytes at IAR decode to is the one the step executes, running or at the end of a
PAUSE wait with no request remembered, with IAR past its bytes, each byte read once in order, and one pin sample
consumed (30_encoding.md R120; log entries 20, 30 and 42). A byte latched by a RESET during PAUSE stands for the
first byte: it is executed with the bytes after it, not read a second time, and the latch is empty afterwards
(70_reset_and_hazards.md R323; log entry 32). -/
def Obligations.StepRunsDecodedInstruction : Prop :=
  ∀ (s : State) (i : Instr) (bs : List Byte), decode bs = .ok (i, []) → i.wellFormed = true →
    (samplePins s).1.reset = false → (samplePins s).1.pause = false →
    (s.run = .running ∧ ((samplePins s).1.intreq = false ∨ s.ii = true) ∨
      s.run = .pauseWait ∧ s.intWaiting = false) →
    let fetched (reads : List Event) : State :=
      { s with
        iar := advance bs.length s.iar
        history := reads
        run := .running
        prefetch := none
        env := (samplePins s).2.env }
    (s.prefetch = none → CodeAt s s.iar bs → step s = exec i (fetched (fetchLog s.iar bs s.history))) ∧
      ∀ b rest, bs = b :: rest → s.prefetch = some b → CodeAt s (inc13 s.iar) rest →
        step s = exec i (fetched (fetchLog (inc13 s.iar) rest s.history))

/-- No step is refused, and the only faults are those of H'00' and of the ten unassigned codes, when their byte
is the one fetched (60_exceptions.md R280, R281; log entries 11 and 12). -/
def Obligations.StepFaultsOnlyOnUnassignedCodes : Prop :=
  ∀ s : State, (∃ t, step s = .next t) ∨
    ∃ u, boundary s = .runNext u ∧ isUnassigned (fetchFirst u).1 = true ∧
      step s = .fault (faultOf (fetchFirst u).1)

/-- Decoding what is encoded gives the instruction back, for every well-formed instruction, and leaves the bytes
after it alone. -/
def Obligations.DecodeOfEncode : Prop :=
  ∀ (i : Instr) (rest : List Byte), i.wellFormed = true → decode (encode i ++ rest) = .ok (i, rest)

/-- Each list of bytes has one meaning: what decodes is well-formed and encodes to the bytes it came from; no
bit is dropped. -/
def Obligations.EncodeOfDecode : Prop :=
  ∀ (bs : List Byte) (i : Instr), decode bs = .ok (i, []) → i.wellFormed = true ∧ encode i = bs

/-- Words written out from the encodings of 30_encoding.md R135, R137 and R132 decode to their instructions. -/
def Obligations.DecodedWords : Prop :=
  decode [0x0E#8, 0x80#8, 0x51#8] = .ok (.loda .r2 true .plain 0x0051#13, []) ∧
    decode [0x0A#8, 0x85#8] = .ok (.lodr .r2 true 5#7, []) ∧
    decode [0x81#8] = .ok (.addz .r1, []) ∧
    decode [0x1B#8, 0x7E#8] = .ok (.bctr 3#2 false (-2), []) ∧
    decode [0x9B#8, 0x78#8] = .ok (.zbrr false (-8), []) ∧
    decode [0x3F#8, 0x20#8, 0x13#8] = .ok (.bsta 3#2 false 0x2013#15, []) ∧
    decode [0x76#8, 0x20#8] = .ok (.ppsu 0x20#8, []) ∧
    decode [0x56#8, 0xA5#8] = .ok (.rede .r2 0xA5#8, []) ∧
    decode [0x40#8] = .ok (.halt, []) ∧
    decode [0xC0#8] = .ok (.nop, [])

/-! ## Flags and arithmetic -/

/-- The condition code of a byte (10_state.md R33). -/
def Obligations.ConditionCodeOfByte : Prop :=
  ∀ v : Byte, (1 ≤ v.toNat ∧ v.toNat ≤ 127 → ccOf v = 0b01#2) ∧ (v.toNat = 0 → ccOf v = 0b00#2) ∧
    (128 ≤ v.toNat → ccOf v = 0b10#2)

/-- The condition code of a comparison: unsigned when COM = 1, two's complement when COM = 0 (10_state.md
R34). -/
def Obligations.ConditionCodeOfComparison : Prop :=
  ∀ a b : Byte,
    (b.toNat < a.toNat → ccCmp true a b = 0b01#2) ∧ (a.toNat = b.toNat → ccCmp true a b = 0b00#2) ∧
    (a.toNat < b.toNat → ccCmp true a b = 0b10#2) ∧
    (b.toInt < a.toInt → ccCmp false a b = 0b01#2) ∧ (a.toInt = b.toInt → ccCmp false a b = 0b00#2) ∧
    (a.toInt < b.toInt → ccCmp false a b = 0b10#2)

/-- Addition: result and flags (41_arithmetic.md R170). -/
def Obligations.AdditionRule : Prop :=
  ∀ p a b : Byte,
    let cin := if Psl.wc p = true then (Psl.c p).toNat else 0
    let sum := a.toNat + b.toNat + cin
    let x := addCore p a b
    x.res.toNat = sum % 256 ∧ (x.c = true ↔ 256 ≤ sum) ∧
      (x.idc = true ↔ 15 < a.toNat % 16 + b.toNat % 16 + cin) ∧
      (x.ovf = true ↔ a.getLsbD 7 = b.getLsbD 7 ∧ x.res.getLsbD 7 ≠ a.getLsbD 7) ∧
      Psl.cc (pslAfterAlu p x) = ccOf x.res ∧ Psl.c (pslAfterAlu p x) = x.c ∧
      Psl.idc (pslAfterAlu p x) = x.idc ∧ Psl.ovf (pslAfterAlu p x) = x.ovf

/-- Subtraction: the true difference with borrow; C and IDC are 1 when nothing is borrowed; OVF is two's
complement overflow of the difference (41_arithmetic.md R171; log entries 16 and 41: the OVF reading and the
IDC polarity are the spec's own inference). -/
def Obligations.SubtractionRule : Prop :=
  ∀ p a b : Byte,
    let borrow : Nat := if Psl.wc p = true ∧ Psl.c p = false then 1 else 0
    let diff : Int := a.toInt - b.toInt - borrow
    let x := subCore p a b
    (x.res.toNat : Int) = ((a.toNat : Int) - b.toNat - borrow) % 256 ∧
      (x.c = true ↔ b.toNat + borrow ≤ a.toNat) ∧
      (x.idc = true ↔ b.toNat % 16 + borrow ≤ a.toNat % 16) ∧
      (x.ovf = true ↔ diff < -128 ∨ 127 < diff) ∧
      Psl.cc (pslAfterAlu p x) = ccOf x.res ∧ Psl.c (pslAfterAlu p x) = x.c ∧
      Psl.idc (pslAfterAlu p x) = x.idc ∧ Psl.ovf (pslAfterAlu p x) = x.ovf

/-- DAR completes: each half has ten added, modulo 16, where its carry flag is 0; C, IDC and all else but CC are
kept, and one free value is drawn for CC, which may be anything (41_arithmetic.md R180; log entries 13 and
14). -/
def Obligations.DecimalAdjustInstruction : Prop :=
  ∀ (s : State) (r : Reg),
    let v := readReg r s
    let hi := (v.toNat / 16 + if Psl.c s.psl = true then 0 else 10) % 16
    let lo := (v.toNat % 16 + if Psl.idc s.psl = true then 0 else 10) % 16
    ∃ t, exec (.dar r) s = .next t ∧ (getPhys (regOf r s) t).toNat = 16 * hi + lo ∧
      t.iar = s.iar ∧ Frame [regOf r s] ccMask s t ∧ t.history = s.history ∧
      t.env = { s.env with draws := s.env.draws + 1 }

/-- The BCD procedures work: add H'66', add, adjust gives the decimal sum and C its hundreds carry; subtract,
adjust gives the decimal difference and C = 0 its borrow (41_arithmetic.md R181). -/
def Obligations.BcdProceduresAreDecimal : Prop :=
  ∀ (p : Byte) (m n : Nat), Psl.wc p = false → m < 100 → n < 100 →
    (let x := addCore p (packedDecimal m) 0x66#8
     let p1 := pslAfterAlu p x
     let y := addCore p1 x.res (packedDecimal n)
     let p2 := pslAfterAlu p1 y
     decimalAdjust p2 y.res = packedDecimal ((m + n) % 100) ∧ (Psl.c p2 = true ↔ 100 ≤ m + n)) ∧
    (let y := subCore p (packedDecimal m) (packedDecimal n)
     let p2 := pslAfterAlu p y
     decimalAdjust p2 y.res = packedDecimal ((100 + m - n) % 100) ∧ (Psl.c p2 = true ↔ n ≤ m))

/-! ## Addresses -/

/-- The base of relative addressing: `next` plus the displacement, modulo 8192, in the page of `next`
(30_encoding.md R123). -/
def Obligations.RelativeBase : Prop :=
  ∀ (s : State) (d : BitVec 7),
    ((relBase d s).toNat : Int) =
      8192 * (s.iar.toNat / 8192 : Nat) + ((s.iar.toNat % 8192 : Nat) + d.toInt) % 8192

/-- An indirect address, whatever stands behind its two bytes: two reads in order, the high part first and its
top bit ignored, the low byte at the next address in the page, one level; in RAM or ROM the two bytes are the
stored ones (20_memory.md R76, R77, R89; the wrap is 92_eei_decisions.md D15, log entry 20). -/
def Obligations.IndirectAddress : Prop :=
  ∀ (s : State) (p : Addr),
    let q := inc13 p
    let hi := memRead p s
    let lo := memRead q hi.2
    q.toNat = 8192 * (p.toNat / 8192) + (p.toNat % 8192 + 1) % 8192 ∧
      (indirectAddr p s).1.toNat = 256 * (hi.1.toNat % 128) + lo.1.toNat ∧ (indirectAddr p s).2 = lo.2 ∧
      ((kindAt s.params.memMap p = .ram ∨ kindAt s.params.memMap p = .rom) →
        (kindAt s.params.memMap q = .ram ∨ kindAt s.params.memMap q = .rom) →
        (indirectAddr p s).1.toNat = 256 * ((s.mem.read p).toNat % 128) + (s.mem.read q).toNat ∧
          (indirectAddr p s).2 =
            { s with history := .memRead q (s.mem.read q) :: .memRead p (s.mem.read p) :: s.history })

/-- Relative, zero-relative and absolute branch addresses: the address formed, or the pointer it names
(30_encoding.md R124, R126, R129; the pointer pages are log entry 21). -/
def Obligations.BranchEffectiveAddresses : Prop :=
  ∀ (s : State) (d : BitVec 7) (a : Addr),
    relEA false d s = (relBase d s, s) ∧ relEA true d s = indirectAddr (relBase d s) s ∧
      branchEA false a s = (a, s) ∧ branchEA true a s = indirectAddr a s ∧
      ∃ z : Addr, (z.toNat : Int) = d.toInt % 8192 ∧ zeroRelEA false d s = (z, s) ∧
        zeroRelEA true d s = indirectAddr z s

/-- Absolute addressing without index: the 13-bit address in the current page, or the pointer it names, with the
field's register as operand register (30_encoding.md R127). -/
def Obligations.AbsoluteAddress : Prop :=
  ∀ (s : State) (x : Reg) (a : Off),
    ∃ p : Addr, p.toNat = 8192 * (s.iar.toNat / 8192) + a.toNat ∧
      absEA x false .plain a s = (p, s) ∧ absEA x true .plain a s = indirectAddr p s ∧
      operandReg x .plain = x

/-- Absolute indexed addressing: the index register stepped first, its unsigned value added inside the page of
the address or, post-indexed, of the pointer's value; R0 is the operand register (30_encoding.md R128; the
wraps are log entries 20 to 22). -/
def Obligations.IndexedAddress : Prop :=
  ∀ (s : State) (x : Reg) (i : Bool) (ic : IndexControl) (a : Off), ic ≠ .plain →
    let t := stepIndex ic x s
    let index := (steppedValue ic (readReg x s)).toNat
    ∃ p : Addr, p.toNat = 8192 * (s.iar.toNat / 8192) + a.toNat ∧
      (let b := if i = true then indirectAddr p t else (p, t)
       (absEA x i ic a s).1.toNat = 8192 * (b.1.toNat / 8192) + (b.1.toNat % 8192 + index) % 8192 ∧
         (absEA x i ic a s).2 = b.2) ∧
      getPhys (regOf x s) t = steppedValue ic (readReg x s) ∧ operandReg x ic = .r0

/-- The address of BXA and BSXA: the base plus register 3, the carry out of bit 12 reaching the page bits only
under INDEX_CARRY_INTO_PAGE (30_encoding.md R130; log entry 19). -/
def Obligations.IndexedBranchAddress : Prop :=
  ∀ (s : State) (i : Bool) (a : Addr),
    let b := if i = true then indirectAddr a s else (a, s)
    let index := (readReg .r3 s).toNat
    (indexedBranchEA i a s).2 = b.2 ∧
      (indexedBranchEA i a s).1.toNat =
        if s.params.indexCarryIntoPage = true then (b.1.toNat + index) % 32768
        else 8192 * (b.1.toNat / 8192) + (b.1.toNat % 8192 + index) % 8192

/-! ## Memory and registers -/

/-- The control signals of the nine bus operations: M/IO, R/W, ADR13-E/NE, ADR14-D/C and INTACK, with OPREQ high
and a WRP pulse in the writes alone; without an operation OPREQ, WRP and INTACK are low (10_state.md R57,
20_memory.md R70, R71, R86, R87, 60_exceptions.md R291). That a level not stated or not cared for is `none` is the
model's choice (log entry 43). -/
def Obligations.BusSignalTable : Prop :=
  ∀ (a : Addr) (v n : Byte),
    (∀ pin ∈ [opreqPin, wrpPin, intackPin], pin none = false) ∧
    ∀ x ∈ [(Event.memRead a v, true, false, some (a.getLsbD 13), some (a.getLsbD 14), false),
           (.memWrite a v, true, true, some (a.getLsbD 13), some (a.getLsbD 14), false),
           (.ioRead (.extended n) v, false, false, some true, none, false),
           (.ioWrite (.extended n) v, false, true, some true, none, false),
           (.ioRead .control v, false, false, some false, some false, false),
           (.ioWrite .control v, false, true, some false, some false, false),
           (.ioRead .data v, false, false, some false, some true, false),
           (.ioWrite .data v, false, true, some false, some true, false),
           (.vectorRead v, false, false, none, none, true)],
      (x.1.signals.map fun b => (b.mIO, b.rW, b.adr13, b.adr14, b.intack)) = some x.2 ∧
        opreqPin (some x.1) = true ∧ (wrpPin (some x.1), intackPin (some x.1)) = (x.2.2.1, x.2.2.2.2.2)

/-- What a memory read answers, by what stands at the address; the read is one bus operation, and nothing but
the history and the environment changes (20_memory.md R70, R89; log entries 1 and 3). -/
def Obligations.MemoryReadByKind : Prop :=
  ∀ (s : State) (a : Addr),
    BusOnly s (memRead a s).2 ∧
      (memRead a s).2.history = .memRead a (memRead a s).1 :: s.history ∧
      (kindAt s.params.memMap a = .ram ∨ kindAt s.params.memMap a = .rom →
        (memRead a s).1 = s.mem.read a ∧ (memRead a s).2.env = s.env) ∧
      (kindAt s.params.memMap a = .device → ∀ b rest, s.env.inputs = b :: rest →
        (memRead a s).1 = b ∧ (memRead a s).2.env.inputs = rest) ∧
      (kindAt s.params.memMap a = .device → s.env.inputs = [] →
        (memRead a s).2.env = { s.env with draws := s.env.draws + 1 }) ∧
      (kindAt s.params.memMap a = .absent →
        (memRead a s).2.env = { s.env with draws := s.env.draws + 1 })

/-- A read after a write, with memory in canonical form: RAM gives the byte written, everything else what it
gave before; the canonical form stays (20_memory.md R71, R89, R91). -/
def Obligations.MemoryReadAfterWrite : Prop :=
  ∀ (s : State) (a b : Addr) (v : Byte), s.mem.wf = true →
    (memWrite a v s).mem.wf = true ∧
      (memWrite a v s).mem.read b =
        if b = a ∧ kindAt s.params.memMap a = .ram then v else s.mem.read b

/-- Field n names R0, or R1 to R3 of the bank RS selects; the three registers of the other bank are neither
read nor written by any instruction (10_state.md R22). -/
def Obligations.RegisterBanksAreSeparate : Prop :=
  (∀ rs, selectReg rs .r0 = .r0) ∧
    (selectReg false .r1 = .r1 ∧ selectReg false .r2 = .r2 ∧ selectReg false .r3 = .r3) ∧
    (selectReg true .r1 = .r1' ∧ selectReg true .r2 = .r2' ∧ selectReg true .r3 = .r3') ∧
    ∀ (i : Instr) (s : State) (q : PhysReg), (∀ r, regOf r s ≠ q) →
      (∀ v, exec i (setPhys q v s) = mapState (setPhys q v) (exec i s)) ∧
        ∀ t, exec i s = .next t → getPhys q t = getPhys q s

/-! ## Load and store -/

/-- LODZ, LODI and STRZ complete: the destination register, CC from it, nothing else (40_load_store.md R160,
R161, R164, R167). LODZ and STRZ with r = 0 are no instructions (30_encoding.md R140): what is said of those two
terms is the model's choice (log entry 44). -/
def Obligations.RegisterLoads : Prop :=
  ∀ (s : State) (r : Reg) (v : Byte),
    (∃ t, exec (.lodz r) s = .next t ∧ Loaded .r0 (readReg r s) [.r0] s s t) ∧
    (∃ t, exec (.lodi r v) s = .next t ∧ Loaded (regOf r s) v [regOf r s] s s t) ∧
    (∃ t, exec (.strz r) s = .next t ∧ Loaded (regOf r s) s.r0 [regOf r s] s s t)

/-- LODR and LODA complete in every form: the byte at the effective address goes to the operand register, CC
from it; the index register keeps its step (40_load_store.md R162, R163, R167, R168). -/
def Obligations.MemoryLoads : Prop :=
  ∀ (s : State) (r : Reg) (i : Bool) (d : BitVec 7) (ic : IndexControl) (a : Off),
    (let ea := relEA i d s
     let m := memRead ea.1 ea.2
     ∃ t, exec (.lodr r i d) s = .next t ∧ Loaded (regOf r s) m.1 [regOf r s] m.2 s t) ∧
    (let ea := absEA r i ic a s
     let m := memRead ea.1 ea.2
     let q := regOf (operandReg r ic) s
     ∃ t, exec (.loda r i ic a) s = .next t ∧ Loaded q m.1 (q :: steppedRegs r ic s) m.2 s t ∧
       IndexStepped r ic q s t)

/-- STRR and STRA complete in every form: the byte is stored at the effective address where RAM stands there,
no other byte changes, no flag and no register but a stepped index register (40_load_store.md R165, R166,
R168, 20_memory.md R89). -/
def Obligations.Stores : Prop :=
  ∀ (s : State) (r : Reg) (i : Bool) (d : BitVec 7) (ic : IndexControl) (a : Off), s.mem.wf = true →
    (let ea := relEA i d s
     let v := readReg r s
     ∃ t, exec (.strr r i d) s = .next t ∧
       t.mem.read ea.1 = (if kindAt s.params.memMap ea.1 = .ram then v else s.mem.read ea.1) ∧
       BytesKeptBut ea.1 s t ∧ RegsKept [] s t ∧ t.psl = s.psl ∧ PsuKept s t ∧ ControlKept s t ∧
       t.iar = s.iar ∧ t.history = .memWrite ea.1 v :: ea.2.history ∧ t.env = ea.2.env) ∧
    (let ea := absEA r i ic a s
     let v := readReg (operandReg r ic) ea.2
     ∃ t, exec (.stra r i ic a) s = .next t ∧
       t.mem.read ea.1 = (if kindAt s.params.memMap ea.1 = .ram then v else s.mem.read ea.1) ∧
       BytesKeptBut ea.1 s t ∧ RegsKept (steppedRegs r ic s) s t ∧
       getPhys (regOf r s) t = steppedValue ic (readReg r s) ∧ t.psl = s.psl ∧ PsuKept s t ∧
       ControlKept s t ∧ t.iar = s.iar ∧ t.history = .memWrite ea.1 v :: ea.2.history ∧
       t.env = ea.2.env)

/-! ## Arithmetic, logic, compare, rotate -/

/-- ADDZ, ADDI, SUBZ and SUBI complete (41_arithmetic.md R172, R173, R176, R177). -/
def Obligations.RegisterArithmetic : Prop :=
  ∀ (s : State) (r : Reg) (v : Byte),
    let q := regOf r s
    (∃ t, exec (.addz r) s = .next t ∧ AluDone .r0 (addCore s.psl s.r0 (readReg r s)) [.r0] s s t) ∧
    (∃ t, exec (.addi r v) s = .next t ∧ AluDone q (addCore s.psl (readReg r s) v) [q] s s t) ∧
    (∃ t, exec (.subz r) s = .next t ∧ AluDone .r0 (subCore s.psl s.r0 (readReg r s)) [.r0] s s t) ∧
    (∃ t, exec (.subi r v) s = .next t ∧ AluDone q (subCore s.psl (readReg r s) v) [q] s s t)

/-- ADDR, ADDA, SUBR and SUBA complete in every form (41_arithmetic.md R174, R175, R178, R179). -/
def Obligations.MemoryArithmetic : Prop :=
  ∀ (s : State) (r : Reg) (i : Bool) (d : BitVec 7) (ic : IndexControl) (a : Off),
    (let ea := relEA i d s
     let m := memRead ea.1 ea.2
     let q := regOf r s
     (∃ t, exec (.addr r i d) s = .next t ∧
       AluDone q (addCore s.psl (readReg r s) m.1) [q] m.2 s t) ∧
     (∃ t, exec (.subr r i d) s = .next t ∧
       AluDone q (subCore s.psl (readReg r s) m.1) [q] m.2 s t)) ∧
    (let ea := absEA r i ic a s
     let m := memRead ea.1 ea.2
     let q := regOf (operandReg r ic) s
     let x := readReg (operandReg r ic) ea.2
     let ws := q :: steppedRegs r ic s
     (∃ t, exec (.adda r i ic a) s = .next t ∧ AluDone q (addCore s.psl x m.1) ws m.2 s t ∧
       IndexStepped r ic q s t) ∧
     (∃ t, exec (.suba r i ic a) s = .next t ∧ AluDone q (subCore s.psl x m.1) ws m.2 s t ∧
       IndexStepped r ic q s t))

/-- ANDZ, ANDI, IORZ, IORI, EORZ and EORI complete: the bitwise result, CC from it (42_logical.md R198). ANDZ with
r = 0 is no instruction (42_logical.md R185): what is said of that term is the model's choice (log entry 44). -/
def Obligations.RegisterLogic : Prop :=
  ∀ (s : State) (r : Reg) (v : Byte),
    let q := regOf r s
    let x := readReg r s
    (∃ t, exec (.andz r) s = .next t ∧ Loaded .r0 (s.r0 &&& x) [.r0] s s t) ∧
    (∃ t, exec (.iorz r) s = .next t ∧ Loaded .r0 (s.r0 ||| x) [.r0] s s t) ∧
    (∃ t, exec (.eorz r) s = .next t ∧ Loaded .r0 (s.r0 ^^^ x) [.r0] s s t) ∧
    (∃ t, exec (.andi r v) s = .next t ∧ Loaded q (x &&& v) [q] s s t) ∧
    (∃ t, exec (.iori r v) s = .next t ∧ Loaded q (x ||| v) [q] s s t) ∧
    (∃ t, exec (.eori r v) s = .next t ∧ Loaded q (x ^^^ v) [q] s s t)

/-- ANDR, IORR, EORR, ANDA, IORA and EORA complete in every form (42_logical.md R198). -/
def Obligations.MemoryLogic : Prop :=
  ∀ (s : State) (r : Reg) (i : Bool) (d : BitVec 7) (ic : IndexControl) (a : Off),
    (let ea := relEA i d s
     let m := memRead ea.1 ea.2
     let q := regOf r s
     let x := readReg r s
     (∃ t, exec (.andr r i d) s = .next t ∧ Loaded q (x &&& m.1) [q] m.2 s t) ∧
     (∃ t, exec (.iorr r i d) s = .next t ∧ Loaded q (x ||| m.1) [q] m.2 s t) ∧
     (∃ t, exec (.eorr r i d) s = .next t ∧ Loaded q (x ^^^ m.1) [q] m.2 s t)) ∧
    (let ea := absEA r i ic a s
     let m := memRead ea.1 ea.2
     let q := regOf (operandReg r ic) s
     let x := readReg (operandReg r ic) ea.2
     let ws := q :: steppedRegs r ic s
     (∃ t, exec (.anda r i ic a) s = .next t ∧ Loaded q (x &&& m.1) ws m.2 s t ∧
       IndexStepped r ic q s t) ∧
     (∃ t, exec (.iora r i ic a) s = .next t ∧ Loaded q (x ||| m.1) ws m.2 s t ∧
       IndexStepped r ic q s t) ∧
     (∃ t, exec (.eora r i ic a) s = .next t ∧ Loaded q (x ^^^ m.1) ws m.2 s t ∧
       IndexStepped r ic q s t))

/-- COMZ and COMI complete: CC from the comparison under COM, nothing else (43_compare_rotate.md R200, R201,
R207). -/
def Obligations.RegisterCompares : Prop :=
  ∀ (s : State) (r : Reg) (v : Byte),
    (∃ t, exec (.comz r) s = .next t ∧ Tested (ccCmp (Psl.com s.psl) s.r0 (readReg r s)) [] s s t) ∧
    (∃ t, exec (.comi r v) s = .next t ∧ Tested (ccCmp (Psl.com s.psl) (readReg r s) v) [] s s t)

/-- COMR and COMA complete in every form; a stepped index register keeps its step (43_compare_rotate.md R202,
R203, R207). -/
def Obligations.MemoryCompares : Prop :=
  ∀ (s : State) (r : Reg) (i : Bool) (d : BitVec 7) (ic : IndexControl) (a : Off),
    (let ea := relEA i d s
     let m := memRead ea.1 ea.2
     ∃ t, exec (.comr r i d) s = .next t ∧
       Tested (ccCmp (Psl.com s.psl) (readReg r s) m.1) [] m.2 s t) ∧
    (let ea := absEA r i ic a s
     let m := memRead ea.1 ea.2
     ∃ t, exec (.coma r i ic a) s = .next t ∧
       Tested (ccCmp (Psl.com s.psl) (readReg (operandReg r ic) ea.2) m.1) (steppedRegs r ic s) m.2 s t ∧
       getPhys (regOf r s) t = steppedValue ic (readReg r s))

/-- RRL and RRR complete: eight bits and CC when WC = 0; nine bits through C, and C, IDC and OVF too, when
WC = 1 (43_compare_rotate.md R204, R205, R206; log entries 17 and 18). -/
def Obligations.Rotates : Prop :=
  ∀ (s : State) (r : Reg),
    let v := readReg r s
    let q := regOf r s
    let c := (Psl.c s.psl).toNat
    let sticky := s.params.rotateOvfSticky && Psl.ovf s.psl
    (Psl.wc s.psl = false →
      (∃ t, exec (.rrl r) s = .next t ∧
        Loaded q (BitVec.ofNat 8 (2 * v.toNat + v.toNat / 128)) [q] s s t) ∧
      (∃ t, exec (.rrr r) s = .next t ∧
        Loaded q (BitVec.ofNat 8 (v.toNat / 2 + 128 * (v.toNat % 2))) [q] s s t)) ∧
    (Psl.wc s.psl = true →
      (∃ t, exec (.rrl r) s = .next t ∧
        AluDone q
          { res := BitVec.ofNat 8 (2 * v.toNat + c), c := v.getLsbD 7, idc := v.getLsbD 4,
            ovf := (v.getLsbD 6 != v.getLsbD 7) || sticky } [q] s s t) ∧
      (∃ t, exec (.rrr r) s = .next t ∧
        AluDone q
          { res := BitVec.ofNat 8 (v.toNat / 2 + 128 * c), c := v.getLsbD 0, idc := v.getLsbD 6,
            ovf := (Psl.c s.psl != v.getLsbD 7) || sticky } [q] s s t))

/-! ## Program status -/

/-- LPSU, PPSU and CPSU complete: F, II and SP from R0 or the mask, a change of F seen on the FLAG pin, nothing
else (44_program_status.md R210, R214, R216, R220; log entries 23 to 25). -/
def Obligations.UpperStatusWrites : Prop :=
  ∀ (s : State) (v : Byte),
    ∀ x ∈ [((.lpsu : Instr), s.r0.getLsbD 6, s.r0.getLsbD 5, s.r0.extractLsb' 0 3),
           (.ppsu v, s.f || v.getLsbD 6, s.ii || v.getLsbD 5, s.sp ||| v.extractLsb' 0 3),
           (.cpsu v, s.f && !v.getLsbD 6, s.ii && !v.getLsbD 5, s.sp &&& ~~~v.extractLsb' 0 3)],
      ∃ t, exec x.1 s = .next t ∧ t.f = x.2.1 ∧ t.ii = x.2.2.1 ∧ t.sp = x.2.2.2 ∧ flagPin t = t.f ∧
        t.history = (if t.f = s.f then s.history else .flag t.f :: s.history) ∧ t.env = s.env ∧
        RegsKept [] s t ∧ t.psl = s.psl ∧ ControlKept s t ∧ t.iar = s.iar ∧ BytesKept s t

/-- LPSL, PPSL and CPSL complete: all eight PSL bits from R0, or those the mask selects; nothing else
(44_program_status.md R211, R215, R217). -/
def Obligations.LowerStatusWrites : Prop :=
  ∀ (s : State) (v : Byte),
    ∀ x ∈ [((.lpsl : Instr), s.r0), (.ppsl v, s.psl ||| v), (.cpsl v, s.psl &&& ~~~v)],
      ∃ t, exec x.1 s = .next t ∧ t.psl = x.2 ∧ RegsKept [] s t ∧ PsuKept s t ∧ ControlKept s t ∧
        t.iar = s.iar ∧ BytesKept s t ∧ BusAs s t

/-- SPSU and SPSL complete: R0 receives the status byte (S is the pin, bits 4 and 3 are 0) and CC is R0's
(44_program_status.md R212, R213, R220; log entries 23 and 24). -/
def Obligations.StatusStores : Prop :=
  ∀ s : State,
    (∃ (t : State) (b : Byte), exec .spsu s = .next t ∧ Loaded .r0 b [.r0] (senseSample s).2 s t ∧
      b.getLsbD 7 = (senseSample s).1 ∧ b.getLsbD 6 = s.f ∧ b.getLsbD 5 = s.ii ∧ b.getLsbD 4 = false ∧
      b.getLsbD 3 = false ∧ b.extractLsb' 0 3 = s.sp) ∧
    (∃ t, exec .spsl s = .next t ∧ Loaded .r0 s.psl [.r0] s s t) ∧
    (∀ b rest, s.env.senses = b :: rest →
      (senseSample s).1 = b ∧ (senseSample s).2 = { s with env := { s.env with senses := rest } })

/-- TPSU, TPSL and TMI complete: CC 00 when every selected bit is 1, else 10, and nothing else; an empty mask
gives 00 (44_program_status.md R218, R219, R222, 48_misc.md R271; log entry 26). -/
def Obligations.MaskTests : Prop :=
  ∀ (s : State) (r : Reg) (v : Byte),
    let result (x : Byte) : BitVec 2 :=
      if (List.range 8).all fun k => !v.getLsbD k || x.getLsbD k then 0b00#2 else 0b10#2
    (∃ t, exec (.tpsu v) s = .next t ∧
      Tested (result (psuByte (senseSample s).1 s)) [] (senseSample s).2 s t) ∧
    (∃ t, exec (.tpsl v) s = .next t ∧ Tested (result s.psl) [] s s t) ∧
    (∃ t, exec (.tmi r v) s = .next t ∧ Tested (result (readReg r s)) [] s s t)

/-! ## Branches, subroutines, returns -/

/-- The branches on condition and on a register complete, taken or not (45_branch.md R225 to R231, R238, R239;
log entries 27 and 28). BCFR and BCFA with v = 3 are no instructions (R225): what is said of those terms is the
model's choice (log entry 44). -/
def Obligations.ConditionalBranches : Prop :=
  ∀ (s : State) (v : BitVec 2) (r : Reg) (i : Bool) (d : BitVec 7) (a : Addr),
    (∃ t, exec (.bctr v i d) s = .next t ∧ BranchDone (v = 3#2 ∨ v = Psl.cc s.psl) (relEA i d s) [] s t) ∧
    (∃ t, exec (.bcta v i a) s = .next t ∧
      BranchDone (v = 3#2 ∨ v = Psl.cc s.psl) (branchEA i a s) [] s t) ∧
    (∃ t, exec (.bcfr v i d) s = .next t ∧ BranchDone (v ≠ Psl.cc s.psl) (relEA i d s) [] s t) ∧
    (∃ t, exec (.bcfa v i a) s = .next t ∧ BranchDone (v ≠ Psl.cc s.psl) (branchEA i a s) [] s t) ∧
    (∃ t, exec (.brnr r i d) s = .next t ∧ BranchDone (readReg r s ≠ 0) (relEA i d s) [] s t) ∧
    (∃ t, exec (.brna r i a) s = .next t ∧ BranchDone (readReg r s ≠ 0) (branchEA i a s) [] s t)

/-- BIRR, BIRA, BDRR and BDRA complete: the register stepped modulo 256 whether or not the branch is taken, the
branch taken when the new value is not zero, no flag written (45_branch.md R232 to R235, R238). That a branch not
taken reads no pointer is decision D33 (log entry 28). -/
def Obligations.SteppingBranches : Prop :=
  ∀ (s : State) (r : Reg) (i : Bool) (d : BitVec 7) (a : Addr),
    let q := regOf r s
    ∀ x ∈ [(readReg r s + 1, (.birr r i d : Instr), (.bira r i a : Instr)),
           (readReg r s - 1, .bdrr r i d, .bdra r i a)],
      let u := writeReg r x.1 s
      (∃ t, exec x.2.1 s = .next t ∧ getPhys q t = x.1 ∧ BranchDone (x.1 ≠ 0) (relEA i d u) [q] s t) ∧
      (∃ t, exec x.2.2 s = .next t ∧ getPhys q t = x.1 ∧ BranchDone (x.1 ≠ 0) (branchEA i a u) [q] s t)

/-- ZBRR and BXA complete and always branch (45_branch.md R236, R237). -/
def Obligations.UnconditionalBranches : Prop :=
  ∀ (s : State) (i : Bool) (d : BitVec 7) (a : Addr),
    (∃ t, exec (.zbrr i d) s = .next t ∧ BranchDone True (zeroRelEA i d s) [] s t) ∧
    (∃ t, exec (.bxa i a) s = .next t ∧ BranchDone True (indexedBranchEA i a s) [] s t)

/-- The conditional subroutine branches complete, taken or not (46_subroutine.md R245 to R251; log entries 27
and 28). BSFR and BSFA with v = 3 are no instructions (45_branch.md R225): what is said of those terms is the
model's choice (log entry 44). -/
def Obligations.ConditionalCalls : Prop :=
  ∀ (s : State) (v : BitVec 2) (r : Reg) (i : Bool) (d : BitVec 7) (a : Addr),
    (∃ t, exec (.bstr v i d) s = .next t ∧ CallDone (v = 3#2 ∨ v = Psl.cc s.psl) (relEA i d s) s t) ∧
    (∃ t, exec (.bsta v i a) s = .next t ∧ CallDone (v = 3#2 ∨ v = Psl.cc s.psl) (branchEA i a s) s t) ∧
    (∃ t, exec (.bsfr v i d) s = .next t ∧ CallDone (v ≠ Psl.cc s.psl) (relEA i d s) s t) ∧
    (∃ t, exec (.bsfa v i a) s = .next t ∧ CallDone (v ≠ Psl.cc s.psl) (branchEA i a s) s t) ∧
    (∃ t, exec (.bsnr r i d) s = .next t ∧ CallDone (readReg r s ≠ 0) (relEA i d s) s t) ∧
    (∃ t, exec (.bsna r i a) s = .next t ∧ CallDone (readReg r s ≠ 0) (branchEA i a s) s t)

/-- ZBSR and BSXA complete and always call (46_subroutine.md R245, R252, R253). -/
def Obligations.UnconditionalCalls : Prop :=
  ∀ (s : State) (i : Bool) (d : BitVec 7) (a : Addr),
    (∃ t, exec (.zbsr i d) s = .next t ∧ CallDone True (zeroRelEA i d s) s t) ∧
    (∃ t, exec (.bsxa i a) s = .next t ∧ CallDone True (indexedBranchEA i a s) s t)

/-- RETC and RETE complete: when v matches, IAR from the entry SP names and SP one down, with II cleared by RETE
alone; else nothing (46_subroutine.md R254, R255, R256; log entry 27). -/
def Obligations.Returns : Prop :=
  ∀ (s : State) (v : BitVec 2),
    ∀ x ∈ [((.retc v : Instr), s.ii), (.rete v, false)],
      ∃ t, exec x.1 s = .next t ∧ LinkFrame s t ∧ t.ras = s.ras ∧ BusAs s t ∧
        (v = 3#2 ∨ v = Psl.cc s.psl → t.iar = rasGet s.ras s.sp ∧ t.sp = s.sp - 1 ∧ t.ii = x.2) ∧
        (¬(v = 3#2 ∨ v = Psl.cc s.psl) → t.iar = s.iar ∧ t.sp = s.sp ∧ t.ii = s.ii)

/-- The stack pointer is stepped up before the entry is written, and stepped down after the entry is read
(10_state.md R45, R46). -/
def Obligations.StackPushAndPop : Prop :=
  ∀ (s : State) (a : Addr),
    (push a s).sp.toNat = (s.sp.toNat + 1) % 8 ∧ rasGet (push a s).ras (push a s).sp = a ∧
      (∀ j, j ≠ (push a s).sp → rasGet (push a s).ras j = rasGet s.ras j) ∧
      (popToIar s).iar = rasGet s.ras s.sp ∧ (popToIar s).sp.toNat = (s.sp.toNat + 7) % 8 ∧
      (popToIar s).ras = s.ras

/-- Up to eight return addresses come back last in, first out; a ninth push overwrites the oldest (10_state.md
R44, R48; log entry 15). -/
def Obligations.StackIsEightDeep : Prop :=
  (∀ (s : State) (as : List Addr) (k : Nat), as.length ≤ 8 → k < as.length →
    let pushed := as.foldl (fun t a => push a t) s
    let popped := Nat.repeat popToIar (k + 1) pushed
    some popped.iar = as[as.length - 1 - k]? ∧
      popped.sp.toNat = (s.sp.toNat + as.length + 7 - k) % 8) ∧
  ∀ (s : State) (first last : Addr) (mid : List Addr), mid.length = 7 →
    let eight := mid.foldl (fun t a => push a t) (push first s)
    rasGet eight.ras (s.sp + 1) = first ∧ rasGet (push last eight).ras (s.sp + 1) = last

/-! ## Input, output, miscellaneous -/

/-- REDD, REDC and REDE complete: the register receives the byte the port answers, one read, CC from the byte; the
answer is the environment's next byte (47_io.md R260 to R262, R266, R267; past the list it is free, log entry
1). -/
def Obligations.InputInstructions : Prop :=
  ∀ (s : State) (r : Reg) (n : Byte),
    ∀ x ∈ [((.redd r : Instr), IoPort.data), (.redc r, .control), (.rede r n, .extended n)],
      (∃ (t : State) (b : Byte), exec x.1 s = .next t ∧
        Loaded (regOf r s) b [regOf r s] (ioRead x.2 s).2 s t ∧
        t.history = .ioRead x.2 b :: s.history ∧
        ∀ c rest, s.env.inputs = c :: rest → b = c ∧ t.env = { s.env with inputs := rest })

/-- WRTD, WRTC and WRTE complete: one output event with the register's byte, nothing else (47_io.md R263 to R265,
R266, R267). -/
def Obligations.OutputInstructions : Prop :=
  ∀ (s : State) (r : Reg) (n : Byte),
    ∀ x ∈ [((.wrtd r : Instr), IoPort.data), (.wrtc r, .control), (.wrte r n, .extended n)],
      ∃ t, exec x.1 s = .next t ∧ t.history = .ioWrite x.2 (readReg r s) :: s.history ∧
        outputs t = outputs s ++ [.ioWrite x.2 (readReg r s)] ∧ t.env = s.env ∧ t.iar = s.iar ∧
        Frame [] 0#8 s t

/-- NOP changes nothing; HALT enters the WAIT state and changes nothing else (48_misc.md R270, R272). -/
def Obligations.NopAndHalt : Prop :=
  ∀ s : State, exec .nop s = .next s ∧ exec .halt s = .next (setRun .haltWait s) ∧
    runPin (setRun .haltWait s) = false

/-- The code H'00' and the ten unassigned codes stop the model on every path (30_encoding.md R141, R142; log
entries 11 and 12: the spec's own decision D1, D2). -/
def Obligations.UnassignedCodesStop : Prop :=
  ∀ s : State, exec .indeterminate00 s = .fault .indeterminate ∧
    ∀ x ∈ [((.unassigned10 : Instr), 0x10#8), (.unassigned11, 0x11#8), (.unassigned90, 0x90#8),
           (.unassigned91, 0x91#8), (.unassignedB6, 0xB6#8), (.unassignedB7, 0xB7#8),
           (.unassignedC4, 0xC4#8), (.unassignedC5, 0xC5#8), (.unassignedC6, 0xC6#8),
           (.unassignedC7, 0xC7#8)],
      exec x.1 s = .fault (.unassigned x.2) ∧ encode x.1 = [x.2]

/-! ## Whole-machine rules -/

/-- Memory is written by STRR and STRA alone: by no other instruction, no interrupt and no RESET (20_memory.md
R71, 10_state.md R58). -/
def Obligations.OnlyStoresWriteMemory : Prop :=
  (∀ (i : Instr) (s t : State), isStore i = false → exec i s = .next t → BytesKept s t) ∧
    (∀ s, BytesKept s (acceptInterrupt s)) ∧ ∀ b s, BytesKept s (applyReset b s)

/-- What sets II and what clears it, completely (60_exceptions.md R286, R287). -/
def Obligations.InhibitWriters : Prop :=
  (∀ s t : State, step s = .next t → s.ii = false → t.ii = true →
    boundary s = .done (acceptInterrupt (samplePins s).2) ∨
    ∃ u, boundary s = .runNext u ∧
      ((fetchInstr u).1 = .lpsu ∧ s.r0.getLsbD 5 = true ∨
        ∃ v, (fetchInstr u).1 = .ppsu v ∧ v.getLsbD 5 = true)) ∧
  (∀ s t : State, step s = .next t → s.ii = true → t.ii = false →
    (samplePins s).1.reset = true ∨
    ∃ u, boundary s = .runNext u ∧
      ((fetchInstr u).1 = .lpsu ∧ s.r0.getLsbD 5 = false ∨
        (∃ v, (fetchInstr u).1 = .cpsu v ∧ v.getLsbD 5 = true) ∨
        ∃ v, (fetchInstr u).1 = .rete v ∧ (v = 3#2 ∨ v = Psl.cc s.psl))) ∧
  (∀ s, (acceptInterrupt s).ii = true) ∧ (∀ b s, (applyReset b s).ii = false) ∧
  (∀ s, ∃ t, exec .lpsu s = .next t ∧ t.ii = s.r0.getLsbD 5) ∧
  (∀ s v, v.getLsbD 5 = true → ∃ t, exec (.ppsu v) s = .next t ∧ t.ii = true) ∧
  (∀ s v, v.getLsbD 5 = true → ∃ t, exec (.cpsu v) s = .next t ∧ t.ii = false) ∧
  (∀ s v, v = 3#2 ∨ v = Psl.cc s.psl → ∃ t, exec (.rete v) s = .next t ∧ t.ii = false)

/-- Which instructions write which PSL bits (10_state.md R23, R28, R36): CC is kept by the stores, branches,
writes, PSU writers, NOP and HALT; C, IDC and OVF by all but add, subtract, a with-carry rotate and the three
PSL writers; RS, WC and COM by all but those three. An acceptance keeps all of PSL. -/
def Obligations.StatusBitWriters : Prop :=
  (∀ (i : Instr) (s t : State), exec i s = .next t →
    (keepsCC i = true → Psl.cc t.psl = Psl.cc s.psl) ∧
    (writesArith s.psl i = false →
      Psl.c t.psl = Psl.c s.psl ∧ Psl.idc t.psl = Psl.idc s.psl ∧ Psl.ovf t.psl = Psl.ovf s.psl) ∧
    (writesPsl i = false →
      Psl.rs t.psl = Psl.rs s.psl ∧ Psl.wc t.psl = Psl.wc s.psl ∧ Psl.com t.psl = Psl.com s.psl)) ∧
  ∀ s, (acceptInterrupt s).psl = s.psl

/-- What moves control state: IAR leaves `next` only by a branch, call or return, and a relative direct one stays
in the page; F is written by LPSU, PPSU and CPSU alone; a stack entry only by a call, at the new SP, with the
return address; WAIT is entered by HALT alone; the system's parameters by nothing (10_state.md R23, R30, R44,
R51, 48_misc.md R272). -/
def Obligations.ControlWriters : Prop :=
  ∀ (i : Instr) (s t : State), exec i s = .next t →
    (isTransfer i = false → t.iar = s.iar) ∧
    (isRelativeDirect i = true → t.iar.toNat / 8192 = s.iar.toNat / 8192) ∧
    (t.f ≠ s.f → i = .lpsu ∨ (∃ v, i = .ppsu v) ∨ ∃ v, i = .cpsu v) ∧
    (∀ j, rasGet t.ras j ≠ rasGet s.ras j → isCall i = true ∧ j = s.sp + 1 ∧ rasGet t.ras j = s.iar) ∧
    (t.run ≠ s.run → i = .halt) ∧ t.params = s.params ∧ t.prefetch = s.prefetch ∧
    t.intWaiting = s.intWaiting

/-- The history only grows: what a step did before stays in it, in order (20_memory.md R86, R91). -/
def Obligations.HistoryOnlyGrows : Prop :=
  ∀ s t : State, step s = .next t → ∃ new, t.history = new ++ s.history

/-- The invariant holds after reset. -/
def Obligations.ResetMeetsInvariant : Prop := Inv State.reset

/-- Every step keeps the invariant: memory stays in canonical form, the latched byte and the interrupt-waiting
signal exist only in a PAUSE wait. -/
def Obligations.StepKeepsInvariant : Prop := ∀ s t : State, Inv s → step s = .next t → Inv t

end
end

