-- ==== Sys2Proof/Laws/State.lean ====
section
/-! SUPPORT. One lemma for each field and each named update of State, so that no proof unfolds an update. -/

namespace Sys2Proof.Machine

variable (s : State)

/-! ## setPsl -/

@[simp] theorem setPsl_r0 (p : Byte) : (setPsl p s).r0 = s.r0 := rfl
@[simp] theorem setPsl_r1 (p : Byte) : (setPsl p s).r1 = s.r1 := rfl
@[simp] theorem setPsl_r2 (p : Byte) : (setPsl p s).r2 = s.r2 := rfl
@[simp] theorem setPsl_r3 (p : Byte) : (setPsl p s).r3 = s.r3 := rfl
@[simp] theorem setPsl_r1' (p : Byte) : (setPsl p s).r1' = s.r1' := rfl
@[simp] theorem setPsl_r2' (p : Byte) : (setPsl p s).r2' = s.r2' := rfl
@[simp] theorem setPsl_r3' (p : Byte) : (setPsl p s).r3' = s.r3' := rfl
@[simp] theorem setPsl_f (p : Byte) : (setPsl p s).f = s.f := rfl
@[simp] theorem setPsl_ii (p : Byte) : (setPsl p s).ii = s.ii := rfl
@[simp] theorem setPsl_sp (p : Byte) : (setPsl p s).sp = s.sp := rfl
@[simp] theorem setPsl_psl (p : Byte) : (setPsl p s).psl = p := rfl
@[simp] theorem setPsl_iar (p : Byte) : (setPsl p s).iar = s.iar := rfl
@[simp] theorem setPsl_ras (p : Byte) : (setPsl p s).ras = s.ras := rfl
@[simp] theorem setPsl_run (p : Byte) : (setPsl p s).run = s.run := rfl
@[simp] theorem setPsl_intWaiting (p : Byte) : (setPsl p s).intWaiting = s.intWaiting := rfl
@[simp] theorem setPsl_prefetch (p : Byte) : (setPsl p s).prefetch = s.prefetch := rfl
@[simp] theorem setPsl_mem (p : Byte) : (setPsl p s).mem = s.mem := rfl
@[simp] theorem setPsl_history (p : Byte) : (setPsl p s).history = s.history := rfl
@[simp] theorem setPsl_params (p : Byte) : (setPsl p s).params = s.params := rfl
@[simp] theorem setPsl_env (p : Byte) : (setPsl p s).env = s.env := rfl

/-! ## setIar -/

@[simp] theorem setIar_r0 (a : Addr) : (setIar a s).r0 = s.r0 := rfl
@[simp] theorem setIar_r1 (a : Addr) : (setIar a s).r1 = s.r1 := rfl
@[simp] theorem setIar_r2 (a : Addr) : (setIar a s).r2 = s.r2 := rfl
@[simp] theorem setIar_r3 (a : Addr) : (setIar a s).r3 = s.r3 := rfl
@[simp] theorem setIar_r1' (a : Addr) : (setIar a s).r1' = s.r1' := rfl
@[simp] theorem setIar_r2' (a : Addr) : (setIar a s).r2' = s.r2' := rfl
@[simp] theorem setIar_r3' (a : Addr) : (setIar a s).r3' = s.r3' := rfl
@[simp] theorem setIar_f (a : Addr) : (setIar a s).f = s.f := rfl
@[simp] theorem setIar_ii (a : Addr) : (setIar a s).ii = s.ii := rfl
@[simp] theorem setIar_sp (a : Addr) : (setIar a s).sp = s.sp := rfl
@[simp] theorem setIar_psl (a : Addr) : (setIar a s).psl = s.psl := rfl
@[simp] theorem setIar_iar (a : Addr) : (setIar a s).iar = a := rfl
@[simp] theorem setIar_ras (a : Addr) : (setIar a s).ras = s.ras := rfl
@[simp] theorem setIar_run (a : Addr) : (setIar a s).run = s.run := rfl
@[simp] theorem setIar_intWaiting (a : Addr) : (setIar a s).intWaiting = s.intWaiting := rfl
@[simp] theorem setIar_prefetch (a : Addr) : (setIar a s).prefetch = s.prefetch := rfl
@[simp] theorem setIar_mem (a : Addr) : (setIar a s).mem = s.mem := rfl
@[simp] theorem setIar_history (a : Addr) : (setIar a s).history = s.history := rfl
@[simp] theorem setIar_params (a : Addr) : (setIar a s).params = s.params := rfl
@[simp] theorem setIar_env (a : Addr) : (setIar a s).env = s.env := rfl

/-! ## setInhibit -/

@[simp] theorem setInhibit_r0 (b : Bool) : (setInhibit b s).r0 = s.r0 := rfl
@[simp] theorem setInhibit_r1 (b : Bool) : (setInhibit b s).r1 = s.r1 := rfl
@[simp] theorem setInhibit_r2 (b : Bool) : (setInhibit b s).r2 = s.r2 := rfl
@[simp] theorem setInhibit_r3 (b : Bool) : (setInhibit b s).r3 = s.r3 := rfl
@[simp] theorem setInhibit_r1' (b : Bool) : (setInhibit b s).r1' = s.r1' := rfl
@[simp] theorem setInhibit_r2' (b : Bool) : (setInhibit b s).r2' = s.r2' := rfl
@[simp] theorem setInhibit_r3' (b : Bool) : (setInhibit b s).r3' = s.r3' := rfl
@[simp] theorem setInhibit_f (b : Bool) : (setInhibit b s).f = s.f := rfl
@[simp] theorem setInhibit_ii (b : Bool) : (setInhibit b s).ii = b := rfl
@[simp] theorem setInhibit_sp (b : Bool) : (setInhibit b s).sp = s.sp := rfl
@[simp] theorem setInhibit_psl (b : Bool) : (setInhibit b s).psl = s.psl := rfl
@[simp] theorem setInhibit_iar (b : Bool) : (setInhibit b s).iar = s.iar := rfl
@[simp] theorem setInhibit_ras (b : Bool) : (setInhibit b s).ras = s.ras := rfl
@[simp] theorem setInhibit_run (b : Bool) : (setInhibit b s).run = s.run := rfl
@[simp] theorem setInhibit_intWaiting (b : Bool) : (setInhibit b s).intWaiting = s.intWaiting := rfl
@[simp] theorem setInhibit_prefetch (b : Bool) : (setInhibit b s).prefetch = s.prefetch := rfl
@[simp] theorem setInhibit_mem (b : Bool) : (setInhibit b s).mem = s.mem := rfl
@[simp] theorem setInhibit_history (b : Bool) : (setInhibit b s).history = s.history := rfl
@[simp] theorem setInhibit_params (b : Bool) : (setInhibit b s).params = s.params := rfl
@[simp] theorem setInhibit_env (b : Bool) : (setInhibit b s).env = s.env := rfl

/-! ## setRun -/

@[simp] theorem setRun_r0 (r : RunState) : (setRun r s).r0 = s.r0 := rfl
@[simp] theorem setRun_r1 (r : RunState) : (setRun r s).r1 = s.r1 := rfl
@[simp] theorem setRun_r2 (r : RunState) : (setRun r s).r2 = s.r2 := rfl
@[simp] theorem setRun_r3 (r : RunState) : (setRun r s).r3 = s.r3 := rfl
@[simp] theorem setRun_r1' (r : RunState) : (setRun r s).r1' = s.r1' := rfl
@[simp] theorem setRun_r2' (r : RunState) : (setRun r s).r2' = s.r2' := rfl
@[simp] theorem setRun_r3' (r : RunState) : (setRun r s).r3' = s.r3' := rfl
@[simp] theorem setRun_f (r : RunState) : (setRun r s).f = s.f := rfl
@[simp] theorem setRun_ii (r : RunState) : (setRun r s).ii = s.ii := rfl
@[simp] theorem setRun_sp (r : RunState) : (setRun r s).sp = s.sp := rfl
@[simp] theorem setRun_psl (r : RunState) : (setRun r s).psl = s.psl := rfl
@[simp] theorem setRun_iar (r : RunState) : (setRun r s).iar = s.iar := rfl
@[simp] theorem setRun_ras (r : RunState) : (setRun r s).ras = s.ras := rfl
@[simp] theorem setRun_run (r : RunState) : (setRun r s).run = r := rfl
@[simp] theorem setRun_intWaiting (r : RunState) : (setRun r s).intWaiting = s.intWaiting := rfl
@[simp] theorem setRun_prefetch (r : RunState) : (setRun r s).prefetch = s.prefetch := rfl
@[simp] theorem setRun_mem (r : RunState) : (setRun r s).mem = s.mem := rfl
@[simp] theorem setRun_history (r : RunState) : (setRun r s).history = s.history := rfl
@[simp] theorem setRun_params (r : RunState) : (setRun r s).params = s.params := rfl
@[simp] theorem setRun_env (r : RunState) : (setRun r s).env = s.env := rfl

/-! ## setCC -/

@[simp] theorem setCC_r0 (cc : BitVec 2) : (setCC cc s).r0 = s.r0 := rfl
@[simp] theorem setCC_r1 (cc : BitVec 2) : (setCC cc s).r1 = s.r1 := rfl
@[simp] theorem setCC_r2 (cc : BitVec 2) : (setCC cc s).r2 = s.r2 := rfl
@[simp] theorem setCC_r3 (cc : BitVec 2) : (setCC cc s).r3 = s.r3 := rfl
@[simp] theorem setCC_r1' (cc : BitVec 2) : (setCC cc s).r1' = s.r1' := rfl
@[simp] theorem setCC_r2' (cc : BitVec 2) : (setCC cc s).r2' = s.r2' := rfl
@[simp] theorem setCC_r3' (cc : BitVec 2) : (setCC cc s).r3' = s.r3' := rfl
@[simp] theorem setCC_f (cc : BitVec 2) : (setCC cc s).f = s.f := rfl
@[simp] theorem setCC_ii (cc : BitVec 2) : (setCC cc s).ii = s.ii := rfl
@[simp] theorem setCC_sp (cc : BitVec 2) : (setCC cc s).sp = s.sp := rfl
@[simp] theorem setCC_psl (cc : BitVec 2) : (setCC cc s).psl = Psl.setCC s.psl cc := rfl
@[simp] theorem setCC_iar (cc : BitVec 2) : (setCC cc s).iar = s.iar := rfl
@[simp] theorem setCC_ras (cc : BitVec 2) : (setCC cc s).ras = s.ras := rfl
@[simp] theorem setCC_run (cc : BitVec 2) : (setCC cc s).run = s.run := rfl
@[simp] theorem setCC_intWaiting (cc : BitVec 2) : (setCC cc s).intWaiting = s.intWaiting := rfl
@[simp] theorem setCC_prefetch (cc : BitVec 2) : (setCC cc s).prefetch = s.prefetch := rfl
@[simp] theorem setCC_mem (cc : BitVec 2) : (setCC cc s).mem = s.mem := rfl
@[simp] theorem setCC_history (cc : BitVec 2) : (setCC cc s).history = s.history := rfl
@[simp] theorem setCC_params (cc : BitVec 2) : (setCC cc s).params = s.params := rfl
@[simp] theorem setCC_env (cc : BitVec 2) : (setCC cc s).env = s.env := rfl

/-! ## logEvent -/

@[simp] theorem logEvent_r0 (e : Event) : (logEvent e s).r0 = s.r0 := rfl
@[simp] theorem logEvent_r1 (e : Event) : (logEvent e s).r1 = s.r1 := rfl
@[simp] theorem logEvent_r2 (e : Event) : (logEvent e s).r2 = s.r2 := rfl
@[simp] theorem logEvent_r3 (e : Event) : (logEvent e s).r3 = s.r3 := rfl
@[simp] theorem logEvent_r1' (e : Event) : (logEvent e s).r1' = s.r1' := rfl
@[simp] theorem logEvent_r2' (e : Event) : (logEvent e s).r2' = s.r2' := rfl
@[simp] theorem logEvent_r3' (e : Event) : (logEvent e s).r3' = s.r3' := rfl
@[simp] theorem logEvent_f (e : Event) : (logEvent e s).f = s.f := rfl
@[simp] theorem logEvent_ii (e : Event) : (logEvent e s).ii = s.ii := rfl
@[simp] theorem logEvent_sp (e : Event) : (logEvent e s).sp = s.sp := rfl
@[simp] theorem logEvent_psl (e : Event) : (logEvent e s).psl = s.psl := rfl
@[simp] theorem logEvent_iar (e : Event) : (logEvent e s).iar = s.iar := rfl
@[simp] theorem logEvent_ras (e : Event) : (logEvent e s).ras = s.ras := rfl
@[simp] theorem logEvent_run (e : Event) : (logEvent e s).run = s.run := rfl
@[simp] theorem logEvent_intWaiting (e : Event) : (logEvent e s).intWaiting = s.intWaiting := rfl
@[simp] theorem logEvent_prefetch (e : Event) : (logEvent e s).prefetch = s.prefetch := rfl
@[simp] theorem logEvent_mem (e : Event) : (logEvent e s).mem = s.mem := rfl
@[simp] theorem logEvent_history (e : Event) : (logEvent e s).history = e :: s.history := rfl
@[simp] theorem logEvent_params (e : Event) : (logEvent e s).params = s.params := rfl
@[simp] theorem logEvent_env (e : Event) : (logEvent e s).env = s.env := rfl

/-! ## nextDraw -/

@[simp] theorem nextDraw_r0 : (nextDraw s).r0 = s.r0 := rfl
@[simp] theorem nextDraw_r1 : (nextDraw s).r1 = s.r1 := rfl
@[simp] theorem nextDraw_r2 : (nextDraw s).r2 = s.r2 := rfl
@[simp] theorem nextDraw_r3 : (nextDraw s).r3 = s.r3 := rfl
@[simp] theorem nextDraw_r1' : (nextDraw s).r1' = s.r1' := rfl
@[simp] theorem nextDraw_r2' : (nextDraw s).r2' = s.r2' := rfl
@[simp] theorem nextDraw_r3' : (nextDraw s).r3' = s.r3' := rfl
@[simp] theorem nextDraw_f : (nextDraw s).f = s.f := rfl
@[simp] theorem nextDraw_ii : (nextDraw s).ii = s.ii := rfl
@[simp] theorem nextDraw_sp : (nextDraw s).sp = s.sp := rfl
@[simp] theorem nextDraw_psl : (nextDraw s).psl = s.psl := rfl
@[simp] theorem nextDraw_iar : (nextDraw s).iar = s.iar := rfl
@[simp] theorem nextDraw_ras : (nextDraw s).ras = s.ras := rfl
@[simp] theorem nextDraw_run : (nextDraw s).run = s.run := rfl
@[simp] theorem nextDraw_intWaiting : (nextDraw s).intWaiting = s.intWaiting := rfl
@[simp] theorem nextDraw_prefetch : (nextDraw s).prefetch = s.prefetch := rfl
@[simp] theorem nextDraw_mem : (nextDraw s).mem = s.mem := rfl
@[simp] theorem nextDraw_history : (nextDraw s).history = s.history := rfl
@[simp] theorem nextDraw_params : (nextDraw s).params = s.params := rfl
@[simp] theorem nextDraw_env : (nextDraw s).env = { s.env with draws := s.env.draws + 1 } := rfl

/-! ## push -/

@[simp] theorem push_r0 (a : Addr) : (push a s).r0 = s.r0 := rfl
@[simp] theorem push_r1 (a : Addr) : (push a s).r1 = s.r1 := rfl
@[simp] theorem push_r2 (a : Addr) : (push a s).r2 = s.r2 := rfl
@[simp] theorem push_r3 (a : Addr) : (push a s).r3 = s.r3 := rfl
@[simp] theorem push_r1' (a : Addr) : (push a s).r1' = s.r1' := rfl
@[simp] theorem push_r2' (a : Addr) : (push a s).r2' = s.r2' := rfl
@[simp] theorem push_r3' (a : Addr) : (push a s).r3' = s.r3' := rfl
@[simp] theorem push_f (a : Addr) : (push a s).f = s.f := rfl
@[simp] theorem push_ii (a : Addr) : (push a s).ii = s.ii := rfl
@[simp] theorem push_sp (a : Addr) : (push a s).sp = s.sp + 1 := rfl
@[simp] theorem push_psl (a : Addr) : (push a s).psl = s.psl := rfl
@[simp] theorem push_iar (a : Addr) : (push a s).iar = s.iar := rfl
@[simp] theorem push_ras (a : Addr) : (push a s).ras = rasSet s.ras (s.sp + 1) a := rfl
@[simp] theorem push_run (a : Addr) : (push a s).run = s.run := rfl
@[simp] theorem push_intWaiting (a : Addr) : (push a s).intWaiting = s.intWaiting := rfl
@[simp] theorem push_prefetch (a : Addr) : (push a s).prefetch = s.prefetch := rfl
@[simp] theorem push_mem (a : Addr) : (push a s).mem = s.mem := rfl
@[simp] theorem push_history (a : Addr) : (push a s).history = s.history := rfl
@[simp] theorem push_params (a : Addr) : (push a s).params = s.params := rfl
@[simp] theorem push_env (a : Addr) : (push a s).env = s.env := rfl

/-! ## popToIar -/

@[simp] theorem popToIar_r0 : (popToIar s).r0 = s.r0 := rfl
@[simp] theorem popToIar_r1 : (popToIar s).r1 = s.r1 := rfl
@[simp] theorem popToIar_r2 : (popToIar s).r2 = s.r2 := rfl
@[simp] theorem popToIar_r3 : (popToIar s).r3 = s.r3 := rfl
@[simp] theorem popToIar_r1' : (popToIar s).r1' = s.r1' := rfl
@[simp] theorem popToIar_r2' : (popToIar s).r2' = s.r2' := rfl
@[simp] theorem popToIar_r3' : (popToIar s).r3' = s.r3' := rfl
@[simp] theorem popToIar_f : (popToIar s).f = s.f := rfl
@[simp] theorem popToIar_ii : (popToIar s).ii = s.ii := rfl
@[simp] theorem popToIar_sp : (popToIar s).sp = s.sp - 1 := rfl
@[simp] theorem popToIar_psl : (popToIar s).psl = s.psl := rfl
@[simp] theorem popToIar_iar : (popToIar s).iar = rasGet s.ras s.sp := rfl
@[simp] theorem popToIar_ras : (popToIar s).ras = s.ras := rfl
@[simp] theorem popToIar_run : (popToIar s).run = s.run := rfl
@[simp] theorem popToIar_intWaiting : (popToIar s).intWaiting = s.intWaiting := rfl
@[simp] theorem popToIar_prefetch : (popToIar s).prefetch = s.prefetch := rfl
@[simp] theorem popToIar_mem : (popToIar s).mem = s.mem := rfl
@[simp] theorem popToIar_history : (popToIar s).history = s.history := rfl
@[simp] theorem popToIar_params : (popToIar s).params = s.params := rfl
@[simp] theorem popToIar_env : (popToIar s).env = s.env := rfl

/-! ## memWrite -/

@[simp] theorem memWrite_r0 (a : Addr) (v : Byte) : (memWrite a v s).r0 = s.r0 := rfl
@[simp] theorem memWrite_r1 (a : Addr) (v : Byte) : (memWrite a v s).r1 = s.r1 := rfl
@[simp] theorem memWrite_r2 (a : Addr) (v : Byte) : (memWrite a v s).r2 = s.r2 := rfl
@[simp] theorem memWrite_r3 (a : Addr) (v : Byte) : (memWrite a v s).r3 = s.r3 := rfl
@[simp] theorem memWrite_r1' (a : Addr) (v : Byte) : (memWrite a v s).r1' = s.r1' := rfl
@[simp] theorem memWrite_r2' (a : Addr) (v : Byte) : (memWrite a v s).r2' = s.r2' := rfl
@[simp] theorem memWrite_r3' (a : Addr) (v : Byte) : (memWrite a v s).r3' = s.r3' := rfl
@[simp] theorem memWrite_f (a : Addr) (v : Byte) : (memWrite a v s).f = s.f := rfl
@[simp] theorem memWrite_ii (a : Addr) (v : Byte) : (memWrite a v s).ii = s.ii := rfl
@[simp] theorem memWrite_sp (a : Addr) (v : Byte) : (memWrite a v s).sp = s.sp := rfl
@[simp] theorem memWrite_psl (a : Addr) (v : Byte) : (memWrite a v s).psl = s.psl := rfl
@[simp] theorem memWrite_iar (a : Addr) (v : Byte) : (memWrite a v s).iar = s.iar := rfl
@[simp] theorem memWrite_ras (a : Addr) (v : Byte) : (memWrite a v s).ras = s.ras := rfl
@[simp] theorem memWrite_run (a : Addr) (v : Byte) : (memWrite a v s).run = s.run := rfl
@[simp] theorem memWrite_intWaiting (a : Addr) (v : Byte) : (memWrite a v s).intWaiting = s.intWaiting := rfl
@[simp] theorem memWrite_prefetch (a : Addr) (v : Byte) : (memWrite a v s).prefetch = s.prefetch := rfl
@[simp] theorem memWrite_mem (a : Addr) (v : Byte) : (memWrite a v s).mem = memStore a v s := rfl
@[simp] theorem memWrite_history (a : Addr) (v : Byte) : (memWrite a v s).history = .memWrite a v :: s.history := rfl
@[simp] theorem memWrite_params (a : Addr) (v : Byte) : (memWrite a v s).params = s.params := rfl
@[simp] theorem memWrite_env (a : Addr) (v : Byte) : (memWrite a v s).env = s.env := rfl

/-! ## ioWrite -/

@[simp] theorem ioWrite_r0 (p : IoPort) (v : Byte) : (ioWrite p v s).r0 = s.r0 := rfl
@[simp] theorem ioWrite_r1 (p : IoPort) (v : Byte) : (ioWrite p v s).r1 = s.r1 := rfl
@[simp] theorem ioWrite_r2 (p : IoPort) (v : Byte) : (ioWrite p v s).r2 = s.r2 := rfl
@[simp] theorem ioWrite_r3 (p : IoPort) (v : Byte) : (ioWrite p v s).r3 = s.r3 := rfl
@[simp] theorem ioWrite_r1' (p : IoPort) (v : Byte) : (ioWrite p v s).r1' = s.r1' := rfl
@[simp] theorem ioWrite_r2' (p : IoPort) (v : Byte) : (ioWrite p v s).r2' = s.r2' := rfl
@[simp] theorem ioWrite_r3' (p : IoPort) (v : Byte) : (ioWrite p v s).r3' = s.r3' := rfl
@[simp] theorem ioWrite_f (p : IoPort) (v : Byte) : (ioWrite p v s).f = s.f := rfl
@[simp] theorem ioWrite_ii (p : IoPort) (v : Byte) : (ioWrite p v s).ii = s.ii := rfl
@[simp] theorem ioWrite_sp (p : IoPort) (v : Byte) : (ioWrite p v s).sp = s.sp := rfl
@[simp] theorem ioWrite_psl (p : IoPort) (v : Byte) : (ioWrite p v s).psl = s.psl := rfl
@[simp] theorem ioWrite_iar (p : IoPort) (v : Byte) : (ioWrite p v s).iar = s.iar := rfl
@[simp] theorem ioWrite_ras (p : IoPort) (v : Byte) : (ioWrite p v s).ras = s.ras := rfl
@[simp] theorem ioWrite_run (p : IoPort) (v : Byte) : (ioWrite p v s).run = s.run := rfl
@[simp] theorem ioWrite_intWaiting (p : IoPort) (v : Byte) : (ioWrite p v s).intWaiting = s.intWaiting := rfl
@[simp] theorem ioWrite_prefetch (p : IoPort) (v : Byte) : (ioWrite p v s).prefetch = s.prefetch := rfl
@[simp] theorem ioWrite_mem (p : IoPort) (v : Byte) : (ioWrite p v s).mem = s.mem := rfl
@[simp] theorem ioWrite_history (p : IoPort) (v : Byte) : (ioWrite p v s).history = .ioWrite p v :: s.history := rfl
@[simp] theorem ioWrite_params (p : IoPort) (v : Byte) : (ioWrite p v s).params = s.params := rfl
@[simp] theorem ioWrite_env (p : IoPort) (v : Byte) : (ioWrite p v s).env = s.env := rfl

/-! ## setPhys -/

@[simp] theorem setPhys_f (q : PhysReg) (v : Byte) : (setPhys q v s).f = s.f := by cases q <;> rfl
@[simp] theorem setPhys_ii (q : PhysReg) (v : Byte) : (setPhys q v s).ii = s.ii := by cases q <;> rfl
@[simp] theorem setPhys_sp (q : PhysReg) (v : Byte) : (setPhys q v s).sp = s.sp := by cases q <;> rfl
@[simp] theorem setPhys_psl (q : PhysReg) (v : Byte) : (setPhys q v s).psl = s.psl := by cases q <;> rfl
@[simp] theorem setPhys_iar (q : PhysReg) (v : Byte) : (setPhys q v s).iar = s.iar := by cases q <;> rfl
@[simp] theorem setPhys_ras (q : PhysReg) (v : Byte) : (setPhys q v s).ras = s.ras := by cases q <;> rfl
@[simp] theorem setPhys_run (q : PhysReg) (v : Byte) : (setPhys q v s).run = s.run := by cases q <;> rfl
@[simp] theorem setPhys_intWaiting (q : PhysReg) (v : Byte) : (setPhys q v s).intWaiting = s.intWaiting := by cases q <;> rfl
@[simp] theorem setPhys_prefetch (q : PhysReg) (v : Byte) : (setPhys q v s).prefetch = s.prefetch := by cases q <;> rfl
@[simp] theorem setPhys_mem (q : PhysReg) (v : Byte) : (setPhys q v s).mem = s.mem := by cases q <;> rfl
@[simp] theorem setPhys_history (q : PhysReg) (v : Byte) : (setPhys q v s).history = s.history := by cases q <;> rfl
@[simp] theorem setPhys_params (q : PhysReg) (v : Byte) : (setPhys q v s).params = s.params := by cases q <;> rfl
@[simp] theorem setPhys_env (q : PhysReg) (v : Byte) : (setPhys q v s).env = s.env := by cases q <;> rfl

/-! ## writeReg -/

@[simp] theorem writeReg_f (r : Reg) (v : Byte) : (writeReg r v s).f = s.f := setPhys_f _ _ _
@[simp] theorem writeReg_ii (r : Reg) (v : Byte) : (writeReg r v s).ii = s.ii := setPhys_ii _ _ _
@[simp] theorem writeReg_sp (r : Reg) (v : Byte) : (writeReg r v s).sp = s.sp := setPhys_sp _ _ _
@[simp] theorem writeReg_psl (r : Reg) (v : Byte) : (writeReg r v s).psl = s.psl := setPhys_psl _ _ _
@[simp] theorem writeReg_iar (r : Reg) (v : Byte) : (writeReg r v s).iar = s.iar := setPhys_iar _ _ _
@[simp] theorem writeReg_ras (r : Reg) (v : Byte) : (writeReg r v s).ras = s.ras := setPhys_ras _ _ _
@[simp] theorem writeReg_run (r : Reg) (v : Byte) : (writeReg r v s).run = s.run := setPhys_run _ _ _
@[simp] theorem writeReg_intWaiting (r : Reg) (v : Byte) : (writeReg r v s).intWaiting = s.intWaiting := setPhys_intWaiting _ _ _
@[simp] theorem writeReg_prefetch (r : Reg) (v : Byte) : (writeReg r v s).prefetch = s.prefetch := setPhys_prefetch _ _ _
@[simp] theorem writeReg_mem (r : Reg) (v : Byte) : (writeReg r v s).mem = s.mem := setPhys_mem _ _ _
@[simp] theorem writeReg_history (r : Reg) (v : Byte) : (writeReg r v s).history = s.history := setPhys_history _ _ _
@[simp] theorem writeReg_params (r : Reg) (v : Byte) : (writeReg r v s).params = s.params := setPhys_params _ _ _
@[simp] theorem writeReg_env (r : Reg) (v : Byte) : (writeReg r v s).env = s.env := setPhys_env _ _ _

end Sys2Proof.Machine
end

