-- ==== Sys2Proof/Laws/Memory.lean ====
section
/-! SUPPORT. The laws of memory: a write is read back, leaves every other address alone, and keeps the
canonical form. -/

namespace Sys2Proof.Machine

/-! ## Reading -/

theorem Memory.lookup_consEntry (a : Nat) (v : Byte) (rest : Memory) (b : Nat)
    (h : v = unlistedByte → b = a → Memory.lookup rest b = unlistedByte) :
    Memory.lookup (Memory.consEntry a v rest) b = if b = a then v else Memory.lookup rest b := by
  unfold Memory.consEntry
  split
  · next hv => split
               · next hb => rw [h hv hb, hv]
               · rfl
  · rfl

/-- Below its first address a list in canonical form has no entry. -/
theorem Memory.lookup_of_lt (m : Memory) (lo b : Nat) (h : Memory.wfFrom lo m = true) (hb : b < lo) :
    Memory.lookup m b = unlistedByte := by
  induction m generalizing lo with
  | nil => rfl
  | cons e rest ih =>
    obtain ⟨k, v⟩ := e
    simp only [Memory.wfFrom, Bool.and_eq_true, decide_eq_true_eq] at h
    simp only [Memory.lookup]
    rw [if_neg (by omega)]
    exact ih (k + 1) h.2 (by omega)

theorem Memory.wfFrom_mono (m : Memory) (lo lo' : Nat) (h : Memory.wfFrom lo m = true) (hl : lo' ≤ lo) :
    Memory.wfFrom lo' m = true := by
  cases m with
  | nil => rfl
  | cons e rest =>
    obtain ⟨k, v⟩ := e
    simp only [Memory.wfFrom, Bool.and_eq_true, decide_eq_true_eq] at h ⊢
    exact ⟨⟨⟨by omega, h.1.1.2⟩, h.1.2⟩, h.2⟩

/-- A written byte is read back; every other address reads as before. -/
theorem Memory.lookup_insert (m : Memory) (lo a b : Nat) (v : Byte) (h : Memory.wfFrom lo m = true) :
    Memory.lookup (Memory.insert m a v) b = if b = a then v else Memory.lookup m b := by
  induction m generalizing lo with
  | nil => exact Memory.lookup_consEntry a v [] b fun _ _ => rfl
  | cons e rest ih =>
    obtain ⟨k, w⟩ := e
    have hr : Memory.wfFrom (k + 1) rest = true := by
      simp only [Memory.wfFrom, Bool.and_eq_true] at h; exact h.2
    simp only [Memory.insert]
    split
    · next hk =>
      refine Memory.lookup_consEntry a v _ b fun _ hb => ?_
      simp only [Memory.lookup]
      rw [if_neg (by omega)]
      exact Memory.lookup_of_lt rest (k + 1) b hr (by omega)
    · split
      · next hk =>
        subst hk
        rw [Memory.lookup_consEntry a v _ b fun _ hb => Memory.lookup_of_lt rest (a + 1) b hr (by omega)]
        simp only [Memory.lookup]
        split <;> rfl
      · next h1 h2 =>
        simp only [Memory.lookup]
        rw [ih (k + 1) hr]
        by_cases hb : b = k
        · rw [if_pos hb, if_pos hb, if_neg (by omega)]
        · rw [if_neg hb, if_neg hb]

/-! ## The canonical form -/

theorem Memory.wfFrom_consEntry (lo a : Nat) (v : Byte) (rest : Memory) (hl : lo ≤ a) (ha : a < 32768)
    (hr : Memory.wfFrom (a + 1) rest = true) : Memory.wfFrom lo (Memory.consEntry a v rest) = true := by
  unfold Memory.consEntry
  split
  · exact Memory.wfFrom_mono rest (a + 1) lo hr (by omega)
  · next hv => simp [Memory.wfFrom, hl, ha, hv, hr]

theorem Memory.wfFrom_insert (m : Memory) (lo a : Nat) (v : Byte) (h : Memory.wfFrom lo m = true)
    (hl : lo ≤ a) (ha : a < 32768) : Memory.wfFrom lo (Memory.insert m a v) = true := by
  induction m generalizing lo with
  | nil => exact Memory.wfFrom_consEntry lo a v [] hl ha rfl
  | cons e rest ih =>
    obtain ⟨k, w⟩ := e
    have hh := h
    simp only [Memory.wfFrom, Bool.and_eq_true, decide_eq_true_eq] at hh
    simp only [Memory.insert]
    split
    · next hk =>
      refine Memory.wfFrom_consEntry lo a v _ hl ha ?_
      simp only [Memory.wfFrom, Bool.and_eq_true, decide_eq_true_eq]
      exact ⟨⟨⟨by omega, hh.1.1.2⟩, hh.1.2⟩, hh.2⟩
    · split
      · next hk => subst hk; exact Memory.wfFrom_consEntry lo a v _ hl ha hh.2
      · next h1 h2 =>
        simp only [Memory.wfFrom, Bool.and_eq_true, decide_eq_true_eq]
        exact ⟨⟨⟨hh.1.1.1, hh.1.1.2⟩, hh.1.2⟩, ih (k + 1) hh.2 (by omega)⟩

/-- A write keeps the canonical form. -/
theorem Memory.wf_write (m : Memory) (a : Addr) (v : Byte) (h : m.wf = true) : (m.write a v).wf = true :=
  Memory.wfFrom_insert m 0 a.toNat v h (Nat.zero_le _) a.isLt

/-- What reading after a write gives. -/
theorem Memory.read_write (m : Memory) (a b : Addr) (v : Byte) (h : m.wf = true) :
    (m.write a v).read b = if b = a then v else m.read b := by
  simp only [Memory.read, Memory.write, Memory.lookup_insert m 0 a.toNat b.toNat v h, BitVec.toNat_inj]

/-- A write of what an unlisted address reads as leaves no entry: equal memories are equal lists. -/
theorem Memory.ext_of_wf (m n : Memory) (lo : Nat) (hm : Memory.wfFrom lo m = true)
    (hn : Memory.wfFrom lo n = true) (h : ∀ b, Memory.lookup m b = Memory.lookup n b) : m = n := by
  induction m generalizing n lo with
  | nil =>
    cases n with
    | nil => rfl
    | cons e rest =>
      obtain ⟨k, v⟩ := e
      simp only [Memory.wfFrom, Bool.and_eq_true, decide_eq_true_eq] at hn
      have := h k
      simp only [Memory.lookup, if_pos] at this
      exact absurd this.symm hn.1.2
  | cons e rest ih =>
    obtain ⟨k, v⟩ := e
    have hm' := hm
    simp only [Memory.wfFrom, Bool.and_eq_true, decide_eq_true_eq] at hm'
    cases n with
    | nil =>
      have := h k
      simp only [Memory.lookup, if_pos] at this
      exact absurd this hm'.1.2
    | cons e' rest' =>
      obtain ⟨k', v'⟩ := e'
      have hn' := hn
      simp only [Memory.wfFrom, Bool.and_eq_true, decide_eq_true_eq] at hn'
      have hk : k = k' := by
        rcases Nat.lt_trichotomy k k' with hlt | heq | hgt
        · have := h k
          simp only [Memory.lookup, if_pos] at this
          rw [if_neg (by omega), Memory.lookup_of_lt rest' (k' + 1) k hn'.2 (by omega)] at this
          exact absurd this hm'.1.2
        · exact heq
        · have := h k'
          simp only [Memory.lookup, if_pos] at this
          rw [if_neg (by omega), Memory.lookup_of_lt rest (k + 1) k' hm'.2 (by omega)] at this
          exact absurd this.symm hn'.1.2
      subst hk
      have hv : v = v' := by have := h k; simpa [Memory.lookup] using this
      subst hv
      have : rest = rest' := by
        refine ih rest' (k + 1) hm'.2 hn'.2 fun b => ?_
        by_cases hb : b = k
        · subst hb
          rw [Memory.lookup_of_lt rest (b + 1) b hm'.2 (by omega),
            Memory.lookup_of_lt rest' (b + 1) b hn'.2 (by omega)]
        · have := h b
          simpa [Memory.lookup, hb] using this
      rw [this]

/-- Memory after reset is in canonical form. -/
theorem reset_mem_wf : State.reset.mem.wf = true := rfl

/-- What a memory write leaves stored is in canonical form. -/
theorem memStore_wf (a : Addr) (v : Byte) (s : State) (h : s.mem.wf = true) : (memStore a v s).wf = true := by
  unfold memStore
  split
  · exact Memory.wf_write s.mem a v h
  all_goals exact h

/-- Everything a memory write can do to the stored bytes (20_memory.md R89). -/
theorem memStore_read (a b : Addr) (v : Byte) (s : State) (h : s.mem.wf = true) :
    (memStore a v s).read b =
      if b = a ∧ kindAt s.params.memMap a = .ram then v else s.mem.read b := by
  unfold memStore
  split
  · next hk => simp [Memory.read_write s.mem a b v h, hk]
  all_goals next hk => simp [hk]

end Sys2Proof.Machine
end

