-- ==== Sys2Proof/Laws/Registers.lean ====
section
/-! SUPPORT. What reading and writing a register, and packing the status bytes, can do. -/

namespace Sys2Proof.Machine

/-! ## General registers -/

theorem getPhys_setPhys (q p : PhysReg) (v : Byte) (s : State) :
    getPhys q (setPhys p v s) = if q = p then v else getPhys q s := by
  cases q <;> cases p <;> rfl

@[simp] theorem getPhys_setPhys_same (q : PhysReg) (v : Byte) (s : State) :
    getPhys q (setPhys q v s) = v := by cases q <;> rfl

@[simp] theorem getPhys_writeReg (q : PhysReg) (r : Reg) (v : Byte) (s : State) :
    getPhys q (writeReg r v s) = if q = regOf r s then v else getPhys q s := getPhys_setPhys _ _ _ _

theorem readReg_eq (r : Reg) (s : State) : readReg r s = getPhys (regOf r s) s := rfl

/-- The registers of a state depend on nothing but its register fields. -/
theorem getPhys_congr {s t : State} (h0 : t.r0 = s.r0) (h1 : t.r1 = s.r1) (h2 : t.r2 = s.r2)
    (h3 : t.r3 = s.r3) (h1' : t.r1' = s.r1') (h2' : t.r2' = s.r2') (h3' : t.r3' = s.r3') (q : PhysReg) :
    getPhys q t = getPhys q s := by
  cases q <;> assumption

/-- Distinct fields name distinct registers, whatever RS is. -/
theorem selectReg_inj (rs : Bool) (x y : Reg) : selectReg rs x = selectReg rs y ↔ x = y := by
  cases rs <;> cases x <;> cases y <;> simp [selectReg]

/-! ## PSL -/

@[simp] theorem setCC_cc (p : Byte) (cc : BitVec 2) : Psl.cc (Psl.setCC p cc) = cc := by
  revert p cc; decide

theorem setCC_kept (p : Byte) (cc : BitVec 2) : Psl.setCC p cc &&& ~~~ccMask = p &&& ~~~ccMask := by
  revert p cc; decide

@[simp] theorem setCC_rs (p : Byte) (cc : BitVec 2) : Psl.rs (Psl.setCC p cc) = Psl.rs p := by
  revert p cc; decide

@[simp] theorem setCC_wc (p : Byte) (cc : BitVec 2) : Psl.wc (Psl.setCC p cc) = Psl.wc p := by
  revert p cc; decide

@[simp] theorem setCC_c (p : Byte) (cc : BitVec 2) : Psl.c (Psl.setCC p cc) = Psl.c p := by
  revert p cc; decide

@[simp] theorem setCC_idc (p : Byte) (cc : BitVec 2) : Psl.idc (Psl.setCC p cc) = Psl.idc p := by
  revert p cc; decide

@[simp] theorem setCC_ovf (p : Byte) (cc : BitVec 2) : Psl.ovf (Psl.setCC p cc) = Psl.ovf p := by
  revert p cc; decide

@[simp] theorem pack_cc (cc : BitVec 2) (i r w o m c : Bool) : Psl.cc (Psl.pack cc i r w o m c) = cc := by
  revert cc i r w o m c; decide

@[simp] theorem pack_idc (cc : BitVec 2) (i r w o m c : Bool) : Psl.idc (Psl.pack cc i r w o m c) = i := by
  revert cc i r w o m c; decide

@[simp] theorem pack_rs (cc : BitVec 2) (i r w o m c : Bool) : Psl.rs (Psl.pack cc i r w o m c) = r := by
  revert cc i r w o m c; decide

@[simp] theorem pack_wc (cc : BitVec 2) (i r w o m c : Bool) : Psl.wc (Psl.pack cc i r w o m c) = w := by
  revert cc i r w o m c; decide

@[simp] theorem pack_ovf (cc : BitVec 2) (i r w o m c : Bool) : Psl.ovf (Psl.pack cc i r w o m c) = o := by
  revert cc i r w o m c; decide

@[simp] theorem pack_com (cc : BitVec 2) (i r w o m c : Bool) : Psl.com (Psl.pack cc i r w o m c) = m := by
  revert cc i r w o m c; decide

@[simp] theorem pack_c (cc : BitVec 2) (i r w o m c : Bool) : Psl.c (Psl.pack cc i r w o m c) = c := by
  revert cc i r w o m c; decide

/-- Every byte is the packing of its fields. -/
theorem pack_fields (p : Byte) :
    Psl.pack (Psl.cc p) (Psl.idc p) (Psl.rs p) (Psl.wc p) (Psl.ovf p) (Psl.com p) (Psl.c p) = p := by
  revert p; decide

/-- Outside `arithMask` stand RS, WC and COM. -/
theorem pack_outside_arith (cc : BitVec 2) (i r w o m c : Bool) :
    Psl.pack cc i r w o m c &&& ~~~arithMask = Psl.pack 0 false r w false m false := by
  revert cc i r w o m c; decide

/-- `setArith` writes CC, IDC, OVF and C and keeps RS, WC and COM. -/
theorem setArith_kept (p : Byte) (cc : BitVec 2) (i o c : Bool) :
    Psl.setArith p cc i o c &&& ~~~arithMask = p &&& ~~~arithMask := by
  rw [Psl.setArith, pack_outside_arith, ← pack_outside_arith (Psl.cc p) (Psl.idc p) _ _ (Psl.ovf p) _ (Psl.c p),
    pack_fields]

@[simp] theorem setArith_cc (p : Byte) (cc : BitVec 2) (i o c : Bool) :
    Psl.cc (Psl.setArith p cc i o c) = cc := pack_cc _ _ _ _ _ _ _

@[simp] theorem setArith_idc (p : Byte) (cc : BitVec 2) (i o c : Bool) :
    Psl.idc (Psl.setArith p cc i o c) = i := pack_idc _ _ _ _ _ _ _

@[simp] theorem setArith_rs (p : Byte) (cc : BitVec 2) (i o c : Bool) :
    Psl.rs (Psl.setArith p cc i o c) = Psl.rs p := pack_rs _ _ _ _ _ _ _

@[simp] theorem setArith_ovf (p : Byte) (cc : BitVec 2) (i o c : Bool) :
    Psl.ovf (Psl.setArith p cc i o c) = o := pack_ovf _ _ _ _ _ _ _

@[simp] theorem setArith_c (p : Byte) (cc : BitVec 2) (i o c : Bool) :
    Psl.c (Psl.setArith p cc i o c) = c := pack_c _ _ _ _ _ _ _

/-! ## PSU -/

@[simp] theorem psuByte_sense (b : Bool) (s : State) : (psuByte b s).getLsbD 7 = b := by
  simp only [psuByte]; generalize s.f = f; generalize s.ii = i; generalize s.sp = p
  revert b f i p; decide

@[simp] theorem psuByte_flag (b : Bool) (s : State) : (psuByte b s).getLsbD 6 = s.f := by
  simp only [psuByte]; generalize s.f = f; generalize s.ii = i; generalize s.sp = p
  revert b f i p; decide

@[simp] theorem psuByte_inhibit (b : Bool) (s : State) : (psuByte b s).getLsbD 5 = s.ii := by
  simp only [psuByte]; generalize s.f = f; generalize s.ii = i; generalize s.sp = p
  revert b f i p; decide

@[simp] theorem psuByte_sp (b : Bool) (s : State) : (psuByte b s).extractLsb' 0 3 = s.sp := by
  simp only [psuByte]; generalize s.f = f; generalize s.ii = i; generalize s.sp = p
  revert b f i p; decide

/-- Everything `writeFlag` can do: the latch takes the level, and a change is logged. -/
theorem writeFlag_spec (b : Bool) (s : State) :
    writeFlag b s =
      { s with f := b, history := if b = s.f then s.history else .flag b :: s.history } := by
  unfold writeFlag
  split
  · next h => subst h; rfl
  · rfl

/-- Everything `writePsu` can do. -/
theorem writePsu_spec (b : Byte) (s : State) :
    writePsu b s =
      { s with
        f := b.getLsbD 6
        ii := b.getLsbD 5
        sp := b.extractLsb' 0 3
        history := if b.getLsbD 6 = s.f then s.history else .flag (b.getLsbD 6) :: s.history } := by
  simp only [writePsu, writeFlag_spec]

end Sys2Proof.Machine
end

