-- ==== Sys2Proof/Laws/Bus.lean ====
section
/-! SUPPORT. What the shared operations over the bus, the environment and addresses can do: each bus operation
changes nothing but history and environment. -/

namespace Sys2Proof.Machine

/-! ## Bus operations change history and environment only -/

theorem BusOnly.refl (s : State) : BusOnly s s := rfl

theorem BusOnly.trans {s t u : State} (h : BusOnly s t) (k : BusOnly t u) : BusOnly s u := by
  unfold BusOnly at *; rw [k, h]

theorem busOnly_logEvent (e : Event) (s : State) : BusOnly s (logEvent e s) := rfl

theorem busOnly_nextDraw (s : State) : BusOnly s (nextDraw s) := rfl

theorem busOnly_drawInput (src : InputSource) (s : State) : BusOnly s (drawInput src s).2 := by
  unfold drawInput; split <;> rfl

theorem busOnly_senseSample (s : State) : BusOnly s (senseSample s).2 := by
  unfold senseSample; split <;> rfl

theorem busOnly_memAnswer (a : Addr) (s : State) : BusOnly s (memAnswer a s).2 := by
  unfold memAnswer
  split
  · rfl
  · rfl
  · exact busOnly_drawInput _ s
  · rfl

theorem busOnly_memRead (a : Addr) (s : State) : BusOnly s (memRead a s).2 :=
  (busOnly_memAnswer a s).trans (busOnly_logEvent _ _)

theorem busOnly_ioRead (p : IoPort) (s : State) : BusOnly s (ioRead p s).2 :=
  (busOnly_drawInput _ s).trans (busOnly_logEvent _ _)

theorem busOnly_vectorAnswer (s : State) : BusOnly s (vectorAnswer s).2 := by
  unfold vectorAnswer; split <;> rfl

theorem busOnly_vectorRead (s : State) : BusOnly s (vectorRead s).2 :=
  (busOnly_vectorAnswer s).trans (busOnly_logEvent _ _)

theorem busOnly_samplePins (s : State) : BusOnly s (samplePins s).2 := by
  unfold samplePins; split <;> rfl

theorem busOnly_lookAhead (s : State) : BusOnly s (lookAhead s) := by
  unfold lookAhead
  split
  · rfl
  · exact busOnly_memRead _ s

theorem busOnly_indirectAddr (p : Addr) (s : State) : BusOnly s (indirectAddr p s).2 :=
  (busOnly_memRead p s).trans (busOnly_memRead _ _)

theorem busOnly_resolve (i : Bool) (p : Addr) (s : State) : BusOnly s (resolve i p s).2 := by
  cases i
  · rfl
  · exact busOnly_indirectAddr p s

theorem busOnly_relEA (i : Bool) (d : BitVec 7) (s : State) : BusOnly s (relEA i d s).2 :=
  busOnly_resolve i _ s

theorem busOnly_zeroRelEA (i : Bool) (d : BitVec 7) (s : State) : BusOnly s (zeroRelEA i d s).2 :=
  busOnly_resolve i _ s

theorem busOnly_branchEA (i : Bool) (a : Addr) (s : State) : BusOnly s (branchEA i a s).2 :=
  busOnly_resolve i a s

theorem busOnly_indexedBranchEA (i : Bool) (a : Addr) (s : State) : BusOnly s (indexedBranchEA i a s).2 :=
  busOnly_resolve i a s

/-- Absolute addressing steps the index register and does bus operations, nothing else. -/
theorem busOnly_absEA (x : Reg) (i : Bool) (ic : IndexControl) (a : Off) (s : State) :
    BusOnly (stepIndex ic x s) (absEA x i ic a s).2 := by
  cases ic <;> exact busOnly_resolve i _ _

/-! ## The fields across bus operations -/

theorem BusOnly.r0 {s t : State} (h : BusOnly s t) : t.r0 = s.r0 := by rw [h]
theorem BusOnly.r1 {s t : State} (h : BusOnly s t) : t.r1 = s.r1 := by rw [h]
theorem BusOnly.r2 {s t : State} (h : BusOnly s t) : t.r2 = s.r2 := by rw [h]
theorem BusOnly.r3 {s t : State} (h : BusOnly s t) : t.r3 = s.r3 := by rw [h]
theorem BusOnly.r1' {s t : State} (h : BusOnly s t) : t.r1' = s.r1' := by rw [h]
theorem BusOnly.r2' {s t : State} (h : BusOnly s t) : t.r2' = s.r2' := by rw [h]
theorem BusOnly.r3' {s t : State} (h : BusOnly s t) : t.r3' = s.r3' := by rw [h]
theorem BusOnly.f {s t : State} (h : BusOnly s t) : t.f = s.f := by rw [h]
theorem BusOnly.ii {s t : State} (h : BusOnly s t) : t.ii = s.ii := by rw [h]
theorem BusOnly.sp {s t : State} (h : BusOnly s t) : t.sp = s.sp := by rw [h]
theorem BusOnly.psl {s t : State} (h : BusOnly s t) : t.psl = s.psl := by rw [h]
theorem BusOnly.iar {s t : State} (h : BusOnly s t) : t.iar = s.iar := by rw [h]
theorem BusOnly.ras {s t : State} (h : BusOnly s t) : t.ras = s.ras := by rw [h]
theorem BusOnly.run {s t : State} (h : BusOnly s t) : t.run = s.run := by rw [h]
theorem BusOnly.intWaiting {s t : State} (h : BusOnly s t) : t.intWaiting = s.intWaiting := by rw [h]
theorem BusOnly.prefetch {s t : State} (h : BusOnly s t) : t.prefetch = s.prefetch := by rw [h]
theorem BusOnly.mem {s t : State} (h : BusOnly s t) : t.mem = s.mem := by rw [h]
theorem BusOnly.params {s t : State} (h : BusOnly s t) : t.params = s.params := by rw [h]

theorem BusOnly.getPhys {s t : State} (h : BusOnly s t) (q : PhysReg) : getPhys q t = getPhys q s := by
  rw [h]; cases q <;> rfl

theorem BusOnly.readReg {s t : State} (h : BusOnly s t) (r : Reg) : readReg r t = readReg r s := by
  rw [readReg_eq, readReg_eq, regOf, regOf, h.psl, h.getPhys]

theorem BusOnly.regOf {s t : State} (h : BusOnly s t) (r : Reg) : regOf r t = regOf r s := by
  rw [Machine.regOf, Machine.regOf, h.psl]

/-! ## Addresses as numbers -/

theorem toNat_inPage (p : BitVec 2) (o : Off) : (inPage p o).toNat = 8192 * p.toNat + o.toNat := by
  rw [inPage, BitVec.toNat_append, Nat.shiftLeft_eq, Nat.mul_comm, ← Nat.two_pow_add_eq_or_of_lt o.isLt]

theorem toNat_pageOf (a : Addr) : (pageOf a).toNat = a.toNat / 8192 := by
  have := a.isLt
  simp [pageOf, BitVec.extractLsb'_toNat, Nat.shiftRight_eq_div_pow]
  omega

theorem toNat_offOf (a : Addr) : (offOf a).toNat = a.toNat % 8192 := by
  simp [offOf, BitVec.extractLsb'_toNat]

/-- The address in a pointer's two bytes, high part first. -/
theorem toNat_pointer (h l : Byte) :
    (h.extractLsb' 0 7 ++ l : BitVec 15).toNat = 256 * (h.toNat % 128) + l.toNat := by
  rw [BitVec.toNat_append, Nat.shiftLeft_eq, Nat.mul_comm, ← Nat.two_pow_add_eq_or_of_lt l.isLt]
  simp [BitVec.extractLsb'_toNat]

/-! ## Reads of stored bytes -/

theorem memRead_stored {s : State} {a : Addr}
    (h : kindAt s.params.memMap a = .ram ∨ kindAt s.params.memMap a = .rom) :
    memRead a s = (s.mem.read a, { s with history := .memRead a (s.mem.read a) :: s.history }) := by
  rcases h with h | h <;> simp [memRead, memAnswer, h, logEvent]

theorem fetchByte_stored {s : State}
    (h : kindAt s.params.memMap s.iar = .ram ∨ kindAt s.params.memMap s.iar = .rom) :
    fetchByte s =
      (s.mem.read s.iar,
        { s with iar := inc13 s.iar, history := .memRead s.iar (s.mem.read s.iar) :: s.history }) := by
  simp only [fetchByte, memRead_stored h]; rfl

/-- Where code stands depends on memory and its map alone. -/
theorem codeAt_congr {s t : State} (hp : t.params = s.params) (hm : t.mem = s.mem) (bs : List Byte) :
    ∀ a, CodeAt s a bs → CodeAt t a bs := by
  induction bs with
  | nil => exact fun _ _ => trivial
  | cons b bs ih => exact fun a h => ⟨hp ▸ h.1, hm ▸ h.2.1, ih _ h.2.2⟩

/-! ## Taking an interrupt -/

/-- Everything an acceptance can do: reads on the bus (those that `ea` ends with), II set, IAR pushed and sent to
the vector's address, RUN, the two latches empty. -/
theorem acceptInterrupt_spec (s : State) (v : Byte × State) (ea : Addr × State)
    (hv : v = vectorRead (setInhibit true (lookAhead s))) (he : ea = zeroRelEA (fieldI v.1) (fieldD v.1) v.2) :
    acceptInterrupt s =
      { s with
        ii := true
        sp := s.sp + 1
        ras := rasSet s.ras (s.sp + 1) s.iar
        iar := ea.1
        run := .running
        intWaiting := false
        prefetch := none
        history := ea.2.history
        env := ea.2.env } := by
  have hb : BusOnly (setInhibit true (lookAhead s)) ea.2 := by
    rw [he, hv]; exact (busOnly_vectorRead _).trans (busOnly_zeroRelEA _ _ _)
  have hl := busOnly_lookAhead s
  have ha : acceptInterrupt s =
      { push ea.2.iar ea.2 with iar := ea.1, run := .running, intWaiting := false, prefetch := none } := by
    rw [he, hv]; rfl
  rw [ha]
  simp [hb.r0, hb.r1, hb.r2, hb.r3, hb.r1', hb.r2', hb.r3', hb.f, hb.ii, hb.sp, hb.psl, hb.iar, hb.ras, hb.mem,
    hb.params, hl.r0, hl.r1, hl.r2, hl.r3, hl.r1', hl.r2', hl.r3', hl.f, hl.sp, hl.psl, hl.iar, hl.ras, hl.mem,
    hl.params]

/-! ### memRead -/

@[simp] theorem memRead_r0 (a : Addr) (s : State) : (memRead a s).2.r0 = s.r0 := (busOnly_memRead _ s).r0
@[simp] theorem memRead_r1 (a : Addr) (s : State) : (memRead a s).2.r1 = s.r1 := (busOnly_memRead _ s).r1
@[simp] theorem memRead_r2 (a : Addr) (s : State) : (memRead a s).2.r2 = s.r2 := (busOnly_memRead _ s).r2
@[simp] theorem memRead_r3 (a : Addr) (s : State) : (memRead a s).2.r3 = s.r3 := (busOnly_memRead _ s).r3
@[simp] theorem memRead_r1' (a : Addr) (s : State) : (memRead a s).2.r1' = s.r1' := (busOnly_memRead _ s).r1'
@[simp] theorem memRead_r2' (a : Addr) (s : State) : (memRead a s).2.r2' = s.r2' := (busOnly_memRead _ s).r2'
@[simp] theorem memRead_r3' (a : Addr) (s : State) : (memRead a s).2.r3' = s.r3' := (busOnly_memRead _ s).r3'
@[simp] theorem memRead_f (a : Addr) (s : State) : (memRead a s).2.f = s.f := (busOnly_memRead _ s).f
@[simp] theorem memRead_ii (a : Addr) (s : State) : (memRead a s).2.ii = s.ii := (busOnly_memRead _ s).ii
@[simp] theorem memRead_sp (a : Addr) (s : State) : (memRead a s).2.sp = s.sp := (busOnly_memRead _ s).sp
@[simp] theorem memRead_psl (a : Addr) (s : State) : (memRead a s).2.psl = s.psl := (busOnly_memRead _ s).psl
@[simp] theorem memRead_iar (a : Addr) (s : State) : (memRead a s).2.iar = s.iar := (busOnly_memRead _ s).iar
@[simp] theorem memRead_ras (a : Addr) (s : State) : (memRead a s).2.ras = s.ras := (busOnly_memRead _ s).ras
@[simp] theorem memRead_run (a : Addr) (s : State) : (memRead a s).2.run = s.run := (busOnly_memRead _ s).run
@[simp] theorem memRead_intWaiting (a : Addr) (s : State) : (memRead a s).2.intWaiting = s.intWaiting := (busOnly_memRead _ s).intWaiting
@[simp] theorem memRead_prefetch (a : Addr) (s : State) : (memRead a s).2.prefetch = s.prefetch := (busOnly_memRead _ s).prefetch
@[simp] theorem memRead_mem (a : Addr) (s : State) : (memRead a s).2.mem = s.mem := (busOnly_memRead _ s).mem
@[simp] theorem memRead_params (a : Addr) (s : State) : (memRead a s).2.params = s.params := (busOnly_memRead _ s).params
@[simp] theorem memRead_getPhys (a : Addr) (q : PhysReg) (s : State) :
    getPhys q (memRead a s).2 = getPhys q s := (busOnly_memRead _ s).getPhys q

/-! ### ioRead -/

@[simp] theorem ioRead_r0 (p : IoPort) (s : State) : (ioRead p s).2.r0 = s.r0 := (busOnly_ioRead _ s).r0
@[simp] theorem ioRead_r1 (p : IoPort) (s : State) : (ioRead p s).2.r1 = s.r1 := (busOnly_ioRead _ s).r1
@[simp] theorem ioRead_r2 (p : IoPort) (s : State) : (ioRead p s).2.r2 = s.r2 := (busOnly_ioRead _ s).r2
@[simp] theorem ioRead_r3 (p : IoPort) (s : State) : (ioRead p s).2.r3 = s.r3 := (busOnly_ioRead _ s).r3
@[simp] theorem ioRead_r1' (p : IoPort) (s : State) : (ioRead p s).2.r1' = s.r1' := (busOnly_ioRead _ s).r1'
@[simp] theorem ioRead_r2' (p : IoPort) (s : State) : (ioRead p s).2.r2' = s.r2' := (busOnly_ioRead _ s).r2'
@[simp] theorem ioRead_r3' (p : IoPort) (s : State) : (ioRead p s).2.r3' = s.r3' := (busOnly_ioRead _ s).r3'
@[simp] theorem ioRead_f (p : IoPort) (s : State) : (ioRead p s).2.f = s.f := (busOnly_ioRead _ s).f
@[simp] theorem ioRead_ii (p : IoPort) (s : State) : (ioRead p s).2.ii = s.ii := (busOnly_ioRead _ s).ii
@[simp] theorem ioRead_sp (p : IoPort) (s : State) : (ioRead p s).2.sp = s.sp := (busOnly_ioRead _ s).sp
@[simp] theorem ioRead_psl (p : IoPort) (s : State) : (ioRead p s).2.psl = s.psl := (busOnly_ioRead _ s).psl
@[simp] theorem ioRead_iar (p : IoPort) (s : State) : (ioRead p s).2.iar = s.iar := (busOnly_ioRead _ s).iar
@[simp] theorem ioRead_ras (p : IoPort) (s : State) : (ioRead p s).2.ras = s.ras := (busOnly_ioRead _ s).ras
@[simp] theorem ioRead_run (p : IoPort) (s : State) : (ioRead p s).2.run = s.run := (busOnly_ioRead _ s).run
@[simp] theorem ioRead_intWaiting (p : IoPort) (s : State) : (ioRead p s).2.intWaiting = s.intWaiting := (busOnly_ioRead _ s).intWaiting
@[simp] theorem ioRead_prefetch (p : IoPort) (s : State) : (ioRead p s).2.prefetch = s.prefetch := (busOnly_ioRead _ s).prefetch
@[simp] theorem ioRead_mem (p : IoPort) (s : State) : (ioRead p s).2.mem = s.mem := (busOnly_ioRead _ s).mem
@[simp] theorem ioRead_params (p : IoPort) (s : State) : (ioRead p s).2.params = s.params := (busOnly_ioRead _ s).params
@[simp] theorem ioRead_getPhys (p : IoPort) (q : PhysReg) (s : State) :
    getPhys q (ioRead p s).2 = getPhys q s := (busOnly_ioRead _ s).getPhys q

/-! ### senseSample -/

@[simp] theorem senseSample_r0 (s : State) : (senseSample s).2.r0 = s.r0 := (busOnly_senseSample s).r0
@[simp] theorem senseSample_r1 (s : State) : (senseSample s).2.r1 = s.r1 := (busOnly_senseSample s).r1
@[simp] theorem senseSample_r2 (s : State) : (senseSample s).2.r2 = s.r2 := (busOnly_senseSample s).r2
@[simp] theorem senseSample_r3 (s : State) : (senseSample s).2.r3 = s.r3 := (busOnly_senseSample s).r3
@[simp] theorem senseSample_r1' (s : State) : (senseSample s).2.r1' = s.r1' := (busOnly_senseSample s).r1'
@[simp] theorem senseSample_r2' (s : State) : (senseSample s).2.r2' = s.r2' := (busOnly_senseSample s).r2'
@[simp] theorem senseSample_r3' (s : State) : (senseSample s).2.r3' = s.r3' := (busOnly_senseSample s).r3'
@[simp] theorem senseSample_f (s : State) : (senseSample s).2.f = s.f := (busOnly_senseSample s).f
@[simp] theorem senseSample_ii (s : State) : (senseSample s).2.ii = s.ii := (busOnly_senseSample s).ii
@[simp] theorem senseSample_sp (s : State) : (senseSample s).2.sp = s.sp := (busOnly_senseSample s).sp
@[simp] theorem senseSample_psl (s : State) : (senseSample s).2.psl = s.psl := (busOnly_senseSample s).psl
@[simp] theorem senseSample_iar (s : State) : (senseSample s).2.iar = s.iar := (busOnly_senseSample s).iar
@[simp] theorem senseSample_ras (s : State) : (senseSample s).2.ras = s.ras := (busOnly_senseSample s).ras
@[simp] theorem senseSample_run (s : State) : (senseSample s).2.run = s.run := (busOnly_senseSample s).run
@[simp] theorem senseSample_intWaiting (s : State) : (senseSample s).2.intWaiting = s.intWaiting := (busOnly_senseSample s).intWaiting
@[simp] theorem senseSample_prefetch (s : State) : (senseSample s).2.prefetch = s.prefetch := (busOnly_senseSample s).prefetch
@[simp] theorem senseSample_mem (s : State) : (senseSample s).2.mem = s.mem := (busOnly_senseSample s).mem
@[simp] theorem senseSample_params (s : State) : (senseSample s).2.params = s.params := (busOnly_senseSample s).params
@[simp] theorem senseSample_getPhys (q : PhysReg) (s : State) :
    getPhys q (senseSample s).2 = getPhys q s := (busOnly_senseSample s).getPhys q

/-! ### vectorRead -/

@[simp] theorem vectorRead_r0 (s : State) : (vectorRead s).2.r0 = s.r0 := (busOnly_vectorRead s).r0
@[simp] theorem vectorRead_r1 (s : State) : (vectorRead s).2.r1 = s.r1 := (busOnly_vectorRead s).r1
@[simp] theorem vectorRead_r2 (s : State) : (vectorRead s).2.r2 = s.r2 := (busOnly_vectorRead s).r2
@[simp] theorem vectorRead_r3 (s : State) : (vectorRead s).2.r3 = s.r3 := (busOnly_vectorRead s).r3
@[simp] theorem vectorRead_r1' (s : State) : (vectorRead s).2.r1' = s.r1' := (busOnly_vectorRead s).r1'
@[simp] theorem vectorRead_r2' (s : State) : (vectorRead s).2.r2' = s.r2' := (busOnly_vectorRead s).r2'
@[simp] theorem vectorRead_r3' (s : State) : (vectorRead s).2.r3' = s.r3' := (busOnly_vectorRead s).r3'
@[simp] theorem vectorRead_f (s : State) : (vectorRead s).2.f = s.f := (busOnly_vectorRead s).f
@[simp] theorem vectorRead_ii (s : State) : (vectorRead s).2.ii = s.ii := (busOnly_vectorRead s).ii
@[simp] theorem vectorRead_sp (s : State) : (vectorRead s).2.sp = s.sp := (busOnly_vectorRead s).sp
@[simp] theorem vectorRead_psl (s : State) : (vectorRead s).2.psl = s.psl := (busOnly_vectorRead s).psl
@[simp] theorem vectorRead_iar (s : State) : (vectorRead s).2.iar = s.iar := (busOnly_vectorRead s).iar
@[simp] theorem vectorRead_ras (s : State) : (vectorRead s).2.ras = s.ras := (busOnly_vectorRead s).ras
@[simp] theorem vectorRead_run (s : State) : (vectorRead s).2.run = s.run := (busOnly_vectorRead s).run
@[simp] theorem vectorRead_intWaiting (s : State) : (vectorRead s).2.intWaiting = s.intWaiting := (busOnly_vectorRead s).intWaiting
@[simp] theorem vectorRead_prefetch (s : State) : (vectorRead s).2.prefetch = s.prefetch := (busOnly_vectorRead s).prefetch
@[simp] theorem vectorRead_mem (s : State) : (vectorRead s).2.mem = s.mem := (busOnly_vectorRead s).mem
@[simp] theorem vectorRead_params (s : State) : (vectorRead s).2.params = s.params := (busOnly_vectorRead s).params
@[simp] theorem vectorRead_getPhys (q : PhysReg) (s : State) :
    getPhys q (vectorRead s).2 = getPhys q s := (busOnly_vectorRead s).getPhys q

/-! ### samplePins -/

@[simp] theorem samplePins_r0 (s : State) : (samplePins s).2.r0 = s.r0 := (busOnly_samplePins s).r0
@[simp] theorem samplePins_r1 (s : State) : (samplePins s).2.r1 = s.r1 := (busOnly_samplePins s).r1
@[simp] theorem samplePins_r2 (s : State) : (samplePins s).2.r2 = s.r2 := (busOnly_samplePins s).r2
@[simp] theorem samplePins_r3 (s : State) : (samplePins s).2.r3 = s.r3 := (busOnly_samplePins s).r3
@[simp] theorem samplePins_r1' (s : State) : (samplePins s).2.r1' = s.r1' := (busOnly_samplePins s).r1'
@[simp] theorem samplePins_r2' (s : State) : (samplePins s).2.r2' = s.r2' := (busOnly_samplePins s).r2'
@[simp] theorem samplePins_r3' (s : State) : (samplePins s).2.r3' = s.r3' := (busOnly_samplePins s).r3'
@[simp] theorem samplePins_f (s : State) : (samplePins s).2.f = s.f := (busOnly_samplePins s).f
@[simp] theorem samplePins_ii (s : State) : (samplePins s).2.ii = s.ii := (busOnly_samplePins s).ii
@[simp] theorem samplePins_sp (s : State) : (samplePins s).2.sp = s.sp := (busOnly_samplePins s).sp
@[simp] theorem samplePins_psl (s : State) : (samplePins s).2.psl = s.psl := (busOnly_samplePins s).psl
@[simp] theorem samplePins_iar (s : State) : (samplePins s).2.iar = s.iar := (busOnly_samplePins s).iar
@[simp] theorem samplePins_ras (s : State) : (samplePins s).2.ras = s.ras := (busOnly_samplePins s).ras
@[simp] theorem samplePins_run (s : State) : (samplePins s).2.run = s.run := (busOnly_samplePins s).run
@[simp] theorem samplePins_intWaiting (s : State) : (samplePins s).2.intWaiting = s.intWaiting := (busOnly_samplePins s).intWaiting
@[simp] theorem samplePins_prefetch (s : State) : (samplePins s).2.prefetch = s.prefetch := (busOnly_samplePins s).prefetch
@[simp] theorem samplePins_mem (s : State) : (samplePins s).2.mem = s.mem := (busOnly_samplePins s).mem
@[simp] theorem samplePins_params (s : State) : (samplePins s).2.params = s.params := (busOnly_samplePins s).params
@[simp] theorem samplePins_getPhys (q : PhysReg) (s : State) :
    getPhys q (samplePins s).2 = getPhys q s := (busOnly_samplePins s).getPhys q

/-! ### resolve -/

@[simp] theorem resolve_r0 (i : Bool) (p : Addr) (s : State) : (resolve i p s).2.r0 = s.r0 := (busOnly_resolve _ _ s).r0
@[simp] theorem resolve_r1 (i : Bool) (p : Addr) (s : State) : (resolve i p s).2.r1 = s.r1 := (busOnly_resolve _ _ s).r1
@[simp] theorem resolve_r2 (i : Bool) (p : Addr) (s : State) : (resolve i p s).2.r2 = s.r2 := (busOnly_resolve _ _ s).r2
@[simp] theorem resolve_r3 (i : Bool) (p : Addr) (s : State) : (resolve i p s).2.r3 = s.r3 := (busOnly_resolve _ _ s).r3
@[simp] theorem resolve_r1' (i : Bool) (p : Addr) (s : State) : (resolve i p s).2.r1' = s.r1' := (busOnly_resolve _ _ s).r1'
@[simp] theorem resolve_r2' (i : Bool) (p : Addr) (s : State) : (resolve i p s).2.r2' = s.r2' := (busOnly_resolve _ _ s).r2'
@[simp] theorem resolve_r3' (i : Bool) (p : Addr) (s : State) : (resolve i p s).2.r3' = s.r3' := (busOnly_resolve _ _ s).r3'
@[simp] theorem resolve_f (i : Bool) (p : Addr) (s : State) : (resolve i p s).2.f = s.f := (busOnly_resolve _ _ s).f
@[simp] theorem resolve_ii (i : Bool) (p : Addr) (s : State) : (resolve i p s).2.ii = s.ii := (busOnly_resolve _ _ s).ii
@[simp] theorem resolve_sp (i : Bool) (p : Addr) (s : State) : (resolve i p s).2.sp = s.sp := (busOnly_resolve _ _ s).sp
@[simp] theorem resolve_psl (i : Bool) (p : Addr) (s : State) : (resolve i p s).2.psl = s.psl := (busOnly_resolve _ _ s).psl
@[simp] theorem resolve_iar (i : Bool) (p : Addr) (s : State) : (resolve i p s).2.iar = s.iar := (busOnly_resolve _ _ s).iar
@[simp] theorem resolve_ras (i : Bool) (p : Addr) (s : State) : (resolve i p s).2.ras = s.ras := (busOnly_resolve _ _ s).ras
@[simp] theorem resolve_run (i : Bool) (p : Addr) (s : State) : (resolve i p s).2.run = s.run := (busOnly_resolve _ _ s).run
@[simp] theorem resolve_intWaiting (i : Bool) (p : Addr) (s : State) : (resolve i p s).2.intWaiting = s.intWaiting := (busOnly_resolve _ _ s).intWaiting
@[simp] theorem resolve_prefetch (i : Bool) (p : Addr) (s : State) : (resolve i p s).2.prefetch = s.prefetch := (busOnly_resolve _ _ s).prefetch
@[simp] theorem resolve_mem (i : Bool) (p : Addr) (s : State) : (resolve i p s).2.mem = s.mem := (busOnly_resolve _ _ s).mem
@[simp] theorem resolve_params (i : Bool) (p : Addr) (s : State) : (resolve i p s).2.params = s.params := (busOnly_resolve _ _ s).params
@[simp] theorem resolve_getPhys (i : Bool) (p : Addr) (q : PhysReg) (s : State) :
    getPhys q (resolve i p s).2 = getPhys q s := (busOnly_resolve _ _ s).getPhys q

/-! ### relEA -/

@[simp] theorem relEA_r0 (i : Bool) (d : BitVec 7) (s : State) : (relEA i d s).2.r0 = s.r0 := (busOnly_relEA _ _ s).r0
@[simp] theorem relEA_r1 (i : Bool) (d : BitVec 7) (s : State) : (relEA i d s).2.r1 = s.r1 := (busOnly_relEA _ _ s).r1
@[simp] theorem relEA_r2 (i : Bool) (d : BitVec 7) (s : State) : (relEA i d s).2.r2 = s.r2 := (busOnly_relEA _ _ s).r2
@[simp] theorem relEA_r3 (i : Bool) (d : BitVec 7) (s : State) : (relEA i d s).2.r3 = s.r3 := (busOnly_relEA _ _ s).r3
@[simp] theorem relEA_r1' (i : Bool) (d : BitVec 7) (s : State) : (relEA i d s).2.r1' = s.r1' := (busOnly_relEA _ _ s).r1'
@[simp] theorem relEA_r2' (i : Bool) (d : BitVec 7) (s : State) : (relEA i d s).2.r2' = s.r2' := (busOnly_relEA _ _ s).r2'
@[simp] theorem relEA_r3' (i : Bool) (d : BitVec 7) (s : State) : (relEA i d s).2.r3' = s.r3' := (busOnly_relEA _ _ s).r3'
@[simp] theorem relEA_f (i : Bool) (d : BitVec 7) (s : State) : (relEA i d s).2.f = s.f := (busOnly_relEA _ _ s).f
@[simp] theorem relEA_ii (i : Bool) (d : BitVec 7) (s : State) : (relEA i d s).2.ii = s.ii := (busOnly_relEA _ _ s).ii
@[simp] theorem relEA_sp (i : Bool) (d : BitVec 7) (s : State) : (relEA i d s).2.sp = s.sp := (busOnly_relEA _ _ s).sp
@[simp] theorem relEA_psl (i : Bool) (d : BitVec 7) (s : State) : (relEA i d s).2.psl = s.psl := (busOnly_relEA _ _ s).psl
@[simp] theorem relEA_iar (i : Bool) (d : BitVec 7) (s : State) : (relEA i d s).2.iar = s.iar := (busOnly_relEA _ _ s).iar
@[simp] theorem relEA_ras (i : Bool) (d : BitVec 7) (s : State) : (relEA i d s).2.ras = s.ras := (busOnly_relEA _ _ s).ras
@[simp] theorem relEA_run (i : Bool) (d : BitVec 7) (s : State) : (relEA i d s).2.run = s.run := (busOnly_relEA _ _ s).run
@[simp] theorem relEA_intWaiting (i : Bool) (d : BitVec 7) (s : State) : (relEA i d s).2.intWaiting = s.intWaiting := (busOnly_relEA _ _ s).intWaiting
@[simp] theorem relEA_prefetch (i : Bool) (d : BitVec 7) (s : State) : (relEA i d s).2.prefetch = s.prefetch := (busOnly_relEA _ _ s).prefetch
@[simp] theorem relEA_mem (i : Bool) (d : BitVec 7) (s : State) : (relEA i d s).2.mem = s.mem := (busOnly_relEA _ _ s).mem
@[simp] theorem relEA_params (i : Bool) (d : BitVec 7) (s : State) : (relEA i d s).2.params = s.params := (busOnly_relEA _ _ s).params
@[simp] theorem relEA_getPhys (i : Bool) (d : BitVec 7) (q : PhysReg) (s : State) :
    getPhys q (relEA i d s).2 = getPhys q s := (busOnly_relEA _ _ s).getPhys q

/-! ### zeroRelEA -/

@[simp] theorem zeroRelEA_r0 (i : Bool) (d : BitVec 7) (s : State) : (zeroRelEA i d s).2.r0 = s.r0 := (busOnly_zeroRelEA _ _ s).r0
@[simp] theorem zeroRelEA_r1 (i : Bool) (d : BitVec 7) (s : State) : (zeroRelEA i d s).2.r1 = s.r1 := (busOnly_zeroRelEA _ _ s).r1
@[simp] theorem zeroRelEA_r2 (i : Bool) (d : BitVec 7) (s : State) : (zeroRelEA i d s).2.r2 = s.r2 := (busOnly_zeroRelEA _ _ s).r2
@[simp] theorem zeroRelEA_r3 (i : Bool) (d : BitVec 7) (s : State) : (zeroRelEA i d s).2.r3 = s.r3 := (busOnly_zeroRelEA _ _ s).r3
@[simp] theorem zeroRelEA_r1' (i : Bool) (d : BitVec 7) (s : State) : (zeroRelEA i d s).2.r1' = s.r1' := (busOnly_zeroRelEA _ _ s).r1'
@[simp] theorem zeroRelEA_r2' (i : Bool) (d : BitVec 7) (s : State) : (zeroRelEA i d s).2.r2' = s.r2' := (busOnly_zeroRelEA _ _ s).r2'
@[simp] theorem zeroRelEA_r3' (i : Bool) (d : BitVec 7) (s : State) : (zeroRelEA i d s).2.r3' = s.r3' := (busOnly_zeroRelEA _ _ s).r3'
@[simp] theorem zeroRelEA_f (i : Bool) (d : BitVec 7) (s : State) : (zeroRelEA i d s).2.f = s.f := (busOnly_zeroRelEA _ _ s).f
@[simp] theorem zeroRelEA_ii (i : Bool) (d : BitVec 7) (s : State) : (zeroRelEA i d s).2.ii = s.ii := (busOnly_zeroRelEA _ _ s).ii
@[simp] theorem zeroRelEA_sp (i : Bool) (d : BitVec 7) (s : State) : (zeroRelEA i d s).2.sp = s.sp := (busOnly_zeroRelEA _ _ s).sp
@[simp] theorem zeroRelEA_psl (i : Bool) (d : BitVec 7) (s : State) : (zeroRelEA i d s).2.psl = s.psl := (busOnly_zeroRelEA _ _ s).psl
@[simp] theorem zeroRelEA_iar (i : Bool) (d : BitVec 7) (s : State) : (zeroRelEA i d s).2.iar = s.iar := (busOnly_zeroRelEA _ _ s).iar
@[simp] theorem zeroRelEA_ras (i : Bool) (d : BitVec 7) (s : State) : (zeroRelEA i d s).2.ras = s.ras := (busOnly_zeroRelEA _ _ s).ras
@[simp] theorem zeroRelEA_run (i : Bool) (d : BitVec 7) (s : State) : (zeroRelEA i d s).2.run = s.run := (busOnly_zeroRelEA _ _ s).run
@[simp] theorem zeroRelEA_intWaiting (i : Bool) (d : BitVec 7) (s : State) : (zeroRelEA i d s).2.intWaiting = s.intWaiting := (busOnly_zeroRelEA _ _ s).intWaiting
@[simp] theorem zeroRelEA_prefetch (i : Bool) (d : BitVec 7) (s : State) : (zeroRelEA i d s).2.prefetch = s.prefetch := (busOnly_zeroRelEA _ _ s).prefetch
@[simp] theorem zeroRelEA_mem (i : Bool) (d : BitVec 7) (s : State) : (zeroRelEA i d s).2.mem = s.mem := (busOnly_zeroRelEA _ _ s).mem
@[simp] theorem zeroRelEA_params (i : Bool) (d : BitVec 7) (s : State) : (zeroRelEA i d s).2.params = s.params := (busOnly_zeroRelEA _ _ s).params
@[simp] theorem zeroRelEA_getPhys (i : Bool) (d : BitVec 7) (q : PhysReg) (s : State) :
    getPhys q (zeroRelEA i d s).2 = getPhys q s := (busOnly_zeroRelEA _ _ s).getPhys q

/-! ### branchEA -/

@[simp] theorem branchEA_r0 (i : Bool) (a : Addr) (s : State) : (branchEA i a s).2.r0 = s.r0 := (busOnly_branchEA _ _ s).r0
@[simp] theorem branchEA_r1 (i : Bool) (a : Addr) (s : State) : (branchEA i a s).2.r1 = s.r1 := (busOnly_branchEA _ _ s).r1
@[simp] theorem branchEA_r2 (i : Bool) (a : Addr) (s : State) : (branchEA i a s).2.r2 = s.r2 := (busOnly_branchEA _ _ s).r2
@[simp] theorem branchEA_r3 (i : Bool) (a : Addr) (s : State) : (branchEA i a s).2.r3 = s.r3 := (busOnly_branchEA _ _ s).r3
@[simp] theorem branchEA_r1' (i : Bool) (a : Addr) (s : State) : (branchEA i a s).2.r1' = s.r1' := (busOnly_branchEA _ _ s).r1'
@[simp] theorem branchEA_r2' (i : Bool) (a : Addr) (s : State) : (branchEA i a s).2.r2' = s.r2' := (busOnly_branchEA _ _ s).r2'
@[simp] theorem branchEA_r3' (i : Bool) (a : Addr) (s : State) : (branchEA i a s).2.r3' = s.r3' := (busOnly_branchEA _ _ s).r3'
@[simp] theorem branchEA_f (i : Bool) (a : Addr) (s : State) : (branchEA i a s).2.f = s.f := (busOnly_branchEA _ _ s).f
@[simp] theorem branchEA_ii (i : Bool) (a : Addr) (s : State) : (branchEA i a s).2.ii = s.ii := (busOnly_branchEA _ _ s).ii
@[simp] theorem branchEA_sp (i : Bool) (a : Addr) (s : State) : (branchEA i a s).2.sp = s.sp := (busOnly_branchEA _ _ s).sp
@[simp] theorem branchEA_psl (i : Bool) (a : Addr) (s : State) : (branchEA i a s).2.psl = s.psl := (busOnly_branchEA _ _ s).psl
@[simp] theorem branchEA_iar (i : Bool) (a : Addr) (s : State) : (branchEA i a s).2.iar = s.iar := (busOnly_branchEA _ _ s).iar
@[simp] theorem branchEA_ras (i : Bool) (a : Addr) (s : State) : (branchEA i a s).2.ras = s.ras := (busOnly_branchEA _ _ s).ras
@[simp] theorem branchEA_run (i : Bool) (a : Addr) (s : State) : (branchEA i a s).2.run = s.run := (busOnly_branchEA _ _ s).run
@[simp] theorem branchEA_intWaiting (i : Bool) (a : Addr) (s : State) : (branchEA i a s).2.intWaiting = s.intWaiting := (busOnly_branchEA _ _ s).intWaiting
@[simp] theorem branchEA_prefetch (i : Bool) (a : Addr) (s : State) : (branchEA i a s).2.prefetch = s.prefetch := (busOnly_branchEA _ _ s).prefetch
@[simp] theorem branchEA_mem (i : Bool) (a : Addr) (s : State) : (branchEA i a s).2.mem = s.mem := (busOnly_branchEA _ _ s).mem
@[simp] theorem branchEA_params (i : Bool) (a : Addr) (s : State) : (branchEA i a s).2.params = s.params := (busOnly_branchEA _ _ s).params
@[simp] theorem branchEA_getPhys (i : Bool) (a : Addr) (q : PhysReg) (s : State) :
    getPhys q (branchEA i a s).2 = getPhys q s := (busOnly_branchEA _ _ s).getPhys q

/-! ### indexedBranchEA -/

@[simp] theorem indexedBranchEA_r0 (i : Bool) (a : Addr) (s : State) : (indexedBranchEA i a s).2.r0 = s.r0 := (busOnly_indexedBranchEA _ _ s).r0
@[simp] theorem indexedBranchEA_r1 (i : Bool) (a : Addr) (s : State) : (indexedBranchEA i a s).2.r1 = s.r1 := (busOnly_indexedBranchEA _ _ s).r1
@[simp] theorem indexedBranchEA_r2 (i : Bool) (a : Addr) (s : State) : (indexedBranchEA i a s).2.r2 = s.r2 := (busOnly_indexedBranchEA _ _ s).r2
@[simp] theorem indexedBranchEA_r3 (i : Bool) (a : Addr) (s : State) : (indexedBranchEA i a s).2.r3 = s.r3 := (busOnly_indexedBranchEA _ _ s).r3
@[simp] theorem indexedBranchEA_r1' (i : Bool) (a : Addr) (s : State) : (indexedBranchEA i a s).2.r1' = s.r1' := (busOnly_indexedBranchEA _ _ s).r1'
@[simp] theorem indexedBranchEA_r2' (i : Bool) (a : Addr) (s : State) : (indexedBranchEA i a s).2.r2' = s.r2' := (busOnly_indexedBranchEA _ _ s).r2'
@[simp] theorem indexedBranchEA_r3' (i : Bool) (a : Addr) (s : State) : (indexedBranchEA i a s).2.r3' = s.r3' := (busOnly_indexedBranchEA _ _ s).r3'
@[simp] theorem indexedBranchEA_f (i : Bool) (a : Addr) (s : State) : (indexedBranchEA i a s).2.f = s.f := (busOnly_indexedBranchEA _ _ s).f
@[simp] theorem indexedBranchEA_ii (i : Bool) (a : Addr) (s : State) : (indexedBranchEA i a s).2.ii = s.ii := (busOnly_indexedBranchEA _ _ s).ii
@[simp] theorem indexedBranchEA_sp (i : Bool) (a : Addr) (s : State) : (indexedBranchEA i a s).2.sp = s.sp := (busOnly_indexedBranchEA _ _ s).sp
@[simp] theorem indexedBranchEA_psl (i : Bool) (a : Addr) (s : State) : (indexedBranchEA i a s).2.psl = s.psl := (busOnly_indexedBranchEA _ _ s).psl
@[simp] theorem indexedBranchEA_iar (i : Bool) (a : Addr) (s : State) : (indexedBranchEA i a s).2.iar = s.iar := (busOnly_indexedBranchEA _ _ s).iar
@[simp] theorem indexedBranchEA_ras (i : Bool) (a : Addr) (s : State) : (indexedBranchEA i a s).2.ras = s.ras := (busOnly_indexedBranchEA _ _ s).ras
@[simp] theorem indexedBranchEA_run (i : Bool) (a : Addr) (s : State) : (indexedBranchEA i a s).2.run = s.run := (busOnly_indexedBranchEA _ _ s).run
@[simp] theorem indexedBranchEA_intWaiting (i : Bool) (a : Addr) (s : State) : (indexedBranchEA i a s).2.intWaiting = s.intWaiting := (busOnly_indexedBranchEA _ _ s).intWaiting
@[simp] theorem indexedBranchEA_prefetch (i : Bool) (a : Addr) (s : State) : (indexedBranchEA i a s).2.prefetch = s.prefetch := (busOnly_indexedBranchEA _ _ s).prefetch
@[simp] theorem indexedBranchEA_mem (i : Bool) (a : Addr) (s : State) : (indexedBranchEA i a s).2.mem = s.mem := (busOnly_indexedBranchEA _ _ s).mem
@[simp] theorem indexedBranchEA_params (i : Bool) (a : Addr) (s : State) : (indexedBranchEA i a s).2.params = s.params := (busOnly_indexedBranchEA _ _ s).params
@[simp] theorem indexedBranchEA_getPhys (i : Bool) (a : Addr) (q : PhysReg) (s : State) :
    getPhys q (indexedBranchEA i a s).2 = getPhys q s := (busOnly_indexedBranchEA _ _ s).getPhys q

end Sys2Proof.Machine
end

