-- ==== Sys2Proof/Laws/Operands.lean ====
section
/-! SUPPORT. What each shared operation of Operands.lean can do, said once: the value it delivers and its frame.
The meanings are short calls of these operations. -/

namespace Sys2Proof.Machine

/-! ## Frames compose -/

theorem Frame.refl (ws : List PhysReg) (mask : Byte) (s : State) : Frame ws mask s s :=
  ⟨fun _ _ => rfl, rfl, ⟨rfl, rfl, rfl⟩, ⟨rfl, rfl, rfl, rfl, rfl⟩, fun _ => rfl⟩

theorem Frame.trans {ws : List PhysReg} {mask : Byte} {s t u : State} (h : Frame ws mask s t)
    (k : Frame ws mask t u) : Frame ws mask s u := by
  obtain ⟨h1, h2, ⟨h3, h4, h5⟩, ⟨h6, h7, h8, h9, h10⟩, h11⟩ := h
  obtain ⟨k1, k2, ⟨k3, k4, k5⟩, ⟨k6, k7, k8, k9, k10⟩, k11⟩ := k
  exact ⟨fun q hq => (k1 q hq).trans (h1 q hq), Eq.trans k2 h2,
    ⟨k3.trans h3, k4.trans h4, k5.trans h5⟩,
    ⟨k6.trans h6, k7.trans h7, k8.trans h8, k9.trans h9, k10.trans h10⟩,
    fun a => (k11 a).trans (h11 a)⟩

theorem Frame.mono {ws ws' : List PhysReg} {mask : Byte} {s t : State} (h : Frame ws mask s t)
    (hw : ∀ q ∈ ws, q ∈ ws') : Frame ws' mask s t :=
  ⟨fun q hq => h.1 q fun hm => hq (hw q hm), h.2⟩

/-- Bus operations keep every frame. -/
theorem BusOnly.frame {s t : State} (h : BusOnly s t) (ws : List PhysReg) (mask : Byte) :
    Frame ws mask s t :=
  ⟨fun q _ => h.getPhys q, by rw [PslKept, h.psl], ⟨h.f, h.ii, h.sp⟩,
    ⟨h.ras, h.run, h.intWaiting, h.prefetch, h.params⟩, fun a => by rw [h.mem]⟩

/-! ## Registers and flags -/

theorem frame_writeReg (r : Reg) (v : Byte) (mask : Byte) (s : State) :
    Frame [regOf r s] mask s (writeReg r v s) := by
  refine ⟨fun q hq => ?_, by simp [PslKept], by simp [PsuKept], by simp [ControlKept], by simp [BytesKept]⟩
  rw [getPhys_writeReg, if_neg (by simpa using hq)]

@[simp] theorem getPhys_setPsl (q : PhysReg) (p : Byte) (s : State) :
    getPhys q (setPsl p s) = getPhys q s := by cases q <;> rfl

@[simp] theorem getPhys_setIar (q : PhysReg) (a : Addr) (s : State) :
    getPhys q (setIar a s) = getPhys q s := by cases q <;> rfl

@[simp] theorem getPhys_setInhibit (q : PhysReg) (b : Bool) (s : State) :
    getPhys q (setInhibit b s) = getPhys q s := by cases q <;> rfl

@[simp] theorem getPhys_setRun (q : PhysReg) (r : RunState) (s : State) :
    getPhys q (setRun r s) = getPhys q s := by cases q <;> rfl

@[simp] theorem getPhys_setCC (q : PhysReg) (cc : BitVec 2) (s : State) :
    getPhys q (setCC cc s) = getPhys q s := by cases q <;> rfl

@[simp] theorem getPhys_nextDraw (q : PhysReg) (s : State) : getPhys q (nextDraw s) = getPhys q s := by
  cases q <;> rfl

@[simp] theorem getPhys_push (q : PhysReg) (a : Addr) (s : State) : getPhys q (push a s) = getPhys q s := by
  cases q <;> rfl

@[simp] theorem getPhys_popToIar (q : PhysReg) (s : State) : getPhys q (popToIar s) = getPhys q s := by
  cases q <;> rfl

@[simp] theorem getPhys_memWrite (q : PhysReg) (a : Addr) (v : Byte) (s : State) :
    getPhys q (memWrite a v s) = getPhys q s := by cases q <;> rfl

@[simp] theorem getPhys_ioWrite (q : PhysReg) (p : IoPort) (v : Byte) (s : State) :
    getPhys q (ioWrite p v s) = getPhys q s := by cases q <;> rfl

@[simp] theorem getPhys_writePsu (q : PhysReg) (b : Byte) (s : State) :
    getPhys q (writePsu b s) = getPhys q s := by rw [writePsu_spec]; cases q <;> rfl

theorem frame_setPsl (p mask : Byte) (ws : List PhysReg) (s : State)
    (h : p &&& ~~~mask = s.psl &&& ~~~mask) : Frame ws mask s (setPsl p s) :=
  ⟨fun _ _ => getPhys_setPsl _ _ _, h, ⟨rfl, rfl, rfl⟩, ⟨rfl, rfl, rfl, rfl, rfl⟩, fun _ => rfl⟩

theorem frame_setCC (cc : BitVec 2) (ws : List PhysReg) (s : State) : Frame ws ccMask s (setCC cc s) :=
  frame_setPsl _ _ _ _ (setCC_kept _ _)

/-- What writing PSL after a register write keeps. -/
theorem frame_writeReg_setPsl (r : Reg) (v p mask : Byte) (s : State)
    (h : p &&& ~~~mask = s.psl &&& ~~~mask) :
    Frame [regOf r s] mask s (setPsl p (writeReg r v s)) :=
  (frame_writeReg r v mask s).trans (frame_setPsl p mask _ _ (by rw [writeReg_psl, h]))

/-- `loadReg`: the register, CC from it, nothing else. -/
theorem loadReg_spec (r : Reg) (v : Byte) (s : State) :
    getPhys (regOf r s) (loadReg r v s) = v ∧ Psl.cc (loadReg r v s).psl = ccOf v ∧
      (loadReg r v s).iar = s.iar ∧ Frame [regOf r s] ccMask s (loadReg r v s) ∧
      BusAs s (loadReg r v s) :=
  ⟨by simp [loadReg], by simp [loadReg], by simp [loadReg],
    (frame_writeReg r v ccMask s).trans (frame_setCC _ _ _), by simp [BusAs, loadReg]⟩

/-- The flags an addition or subtraction leaves, and what it keeps of PSL. -/
theorem pslAfterAlu_spec (p : Byte) (x : AluResult) :
    Psl.cc (pslAfterAlu p x) = ccOf x.res ∧ Psl.c (pslAfterAlu p x) = x.c ∧
      Psl.idc (pslAfterAlu p x) = x.idc ∧ Psl.ovf (pslAfterAlu p x) = x.ovf ∧
      pslAfterAlu p x &&& ~~~arithMask = p &&& ~~~arithMask :=
  ⟨setArith_cc _ _ _ _ _, setArith_c _ _ _ _ _, setArith_idc _ _ _ _ _, setArith_ovf _ _ _ _ _,
    setArith_kept _ _ _ _ _⟩

/-- A register write followed by the flags of the adder. -/
theorem writeAlu_spec (r : Reg) (x : AluResult) (s : State) :
    let t := setPsl (pslAfterAlu s.psl x) (writeReg r x.res s)
    getPhys (regOf r s) t = x.res ∧ Psl.cc t.psl = ccOf x.res ∧ Psl.c t.psl = x.c ∧
      Psl.idc t.psl = x.idc ∧ Psl.ovf t.psl = x.ovf ∧ t.iar = s.iar ∧ Frame [regOf r s] arithMask s t ∧
      BusAs s t := by
  obtain ⟨h1, h2, h3, h4, h5⟩ := pslAfterAlu_spec s.psl x
  exact ⟨by simp, h1, h2, h3, h4, by simp, frame_writeReg_setPsl _ _ _ _ _ h5, by simp [BusAs]⟩

/-- `compareReg` writes CC and nothing else. -/
theorem compareReg_spec (r : Reg) (b : Byte) (s : State) :
    Psl.cc (compareReg r b s).psl = ccCmp (Psl.com s.psl) (readReg r s) b ∧
      (compareReg r b s).iar = s.iar ∧ Frame [] ccMask s (compareReg r b s) ∧
      BusAs s (compareReg r b s) :=
  ⟨by simp [compareReg], rfl, frame_setCC _ _ _, rfl, rfl⟩

/-! ## The index step -/

theorem frame_stepIndex (ic : IndexControl) (x : Reg) (mask : Byte) (s : State) :
    Frame (steppedRegs x ic s) mask s (stepIndex ic x s) := by
  cases ic
  · exact Frame.refl _ _ _
  · exact frame_writeReg _ _ _ _
  · exact frame_writeReg _ _ _ _
  · exact Frame.refl _ _ _

@[simp] theorem stepIndex_iar (ic : IndexControl) (x : Reg) (s : State) :
    (stepIndex ic x s).iar = s.iar := by cases ic <;> simp [stepIndex]

@[simp] theorem stepIndex_psl (ic : IndexControl) (x : Reg) (s : State) :
    (stepIndex ic x s).psl = s.psl := by cases ic <;> simp [stepIndex]

@[simp] theorem stepIndex_mem (ic : IndexControl) (x : Reg) (s : State) :
    (stepIndex ic x s).mem = s.mem := by cases ic <;> simp [stepIndex]

@[simp] theorem stepIndex_params (ic : IndexControl) (x : Reg) (s : State) :
    (stepIndex ic x s).params = s.params := by cases ic <;> simp [stepIndex]

@[simp] theorem stepIndex_env (ic : IndexControl) (x : Reg) (s : State) :
    (stepIndex ic x s).env = s.env := by cases ic <;> simp [stepIndex]

@[simp] theorem stepIndex_history (ic : IndexControl) (x : Reg) (s : State) :
    (stepIndex ic x s).history = s.history := by cases ic <;> simp [stepIndex]

@[simp] theorem regOf_stepIndex (ic : IndexControl) (x r : Reg) (s : State) :
    regOf r (stepIndex ic x s) = regOf r s := by rw [regOf, regOf, stepIndex_psl]

/-- The registers after the index step. -/
theorem getPhys_stepIndex (ic : IndexControl) (x : Reg) (q : PhysReg) (s : State) :
    getPhys q (stepIndex ic x s) =
      if q = regOf x s then steppedValue ic (getPhys q s) else getPhys q s := by
  cases ic <;> simp only [stepIndex, steppedValue, getPhys_writeReg, readReg_eq, ite_self]
  all_goals split
  all_goals first | rfl | (next h => rw [h])

/-- The state of an absolute access differs from the state after the index step by bus operations. -/
theorem absEA_busOnly (x : Reg) (i : Bool) (ic : IndexControl) (a : Off) (s : State) :
    BusOnly (stepIndex ic x s) (absEA x i ic a s).2 := busOnly_absEA x i ic a s

theorem frame_absEA (x : Reg) (i : Bool) (ic : IndexControl) (a : Off) (mask : Byte) (s : State) :
    Frame (steppedRegs x ic s) mask s (absEA x i ic a s).2 :=
  (frame_stepIndex ic x mask s).trans ((absEA_busOnly x i ic a s).frame _ _)

/-! ## The return address stack -/

theorem rasGet_rasSet (ras : Vector Addr 8) (i j : BitVec 3) (a : Addr) :
    rasGet (rasSet ras i a) j = if j = i then a else rasGet ras j := by
  simp only [rasGet, rasSet]
  rw [Vector.getElem_set]
  by_cases h : j = i
  · subst h; simp
  · rw [if_neg (by rwa [BitVec.toNat_inj, eq_comm]), if_neg h]

/-- A pop after a push gives the address back and the stack pointer as it was (10_state.md R45, R46). -/
theorem popToIar_push (a : Addr) (s : State) :
    (popToIar (push a s)).iar = a ∧ (popToIar (push a s)).sp = s.sp := by
  refine ⟨?_, by simp⟩
  simp [rasGet_rasSet]

/-- `callTo`: the return address pushed, control at the effective address. -/
theorem callTo_spec (ea : Addr × State) :
    (callTo ea).iar = ea.1 ∧ (callTo ea).sp = ea.2.sp + 1 ∧
      (∀ j, rasGet (callTo ea).ras j = if j = ea.2.sp + 1 then ea.2.iar else rasGet ea.2.ras j) :=
  ⟨rfl, rfl, fun j => by simp [callTo, rasGet_rasSet]⟩

end Sys2Proof.Machine
end

