-- ==== Sys2Proof/Laws/PerInstr.lean ====
section
/-! SUPPORT. Statements about every instruction, one lemma for each constructor. -/

namespace Sys2Proof.Laws.EncodeLength

/-- The encoding has as many bytes as the length its first byte announces (30_encoding.md R111). -/
def Statement (i : Instr) : Prop :=
  ∃ b0 rest, encode i = b0 :: rest ∧ (encode i).length = instrLength b0

theorem lodz (r : Reg) : Statement (.lodz r) :=
  ⟨_, _, rfl, by cases r <;> rfl⟩

theorem lodi (r : Reg) (v : Byte) : Statement (.lodi r v) :=
  ⟨_, _, rfl, by cases r <;> rfl⟩

theorem lodr (r : Reg) (i : Bool) (d : BitVec 7) : Statement (.lodr r i d) :=
  ⟨_, _, rfl, by cases r <;> rfl⟩

theorem loda (r : Reg) (i : Bool) (ic : IndexControl) (a : Off) : Statement (.loda r i ic a) :=
  ⟨_, _, rfl, by cases r <;> rfl⟩

theorem strz (r : Reg) : Statement (.strz r) :=
  ⟨_, _, rfl, by cases r <;> rfl⟩

theorem strr (r : Reg) (i : Bool) (d : BitVec 7) : Statement (.strr r i d) :=
  ⟨_, _, rfl, by cases r <;> rfl⟩

theorem stra (r : Reg) (i : Bool) (ic : IndexControl) (a : Off) : Statement (.stra r i ic a) :=
  ⟨_, _, rfl, by cases r <;> rfl⟩

theorem addz (r : Reg) : Statement (.addz r) :=
  ⟨_, _, rfl, by cases r <;> rfl⟩

theorem addi (r : Reg) (v : Byte) : Statement (.addi r v) :=
  ⟨_, _, rfl, by cases r <;> rfl⟩

theorem addr (r : Reg) (i : Bool) (d : BitVec 7) : Statement (.addr r i d) :=
  ⟨_, _, rfl, by cases r <;> rfl⟩

theorem adda (r : Reg) (i : Bool) (ic : IndexControl) (a : Off) : Statement (.adda r i ic a) :=
  ⟨_, _, rfl, by cases r <;> rfl⟩

theorem subz (r : Reg) : Statement (.subz r) :=
  ⟨_, _, rfl, by cases r <;> rfl⟩

theorem subi (r : Reg) (v : Byte) : Statement (.subi r v) :=
  ⟨_, _, rfl, by cases r <;> rfl⟩

theorem subr (r : Reg) (i : Bool) (d : BitVec 7) : Statement (.subr r i d) :=
  ⟨_, _, rfl, by cases r <;> rfl⟩

theorem suba (r : Reg) (i : Bool) (ic : IndexControl) (a : Off) : Statement (.suba r i ic a) :=
  ⟨_, _, rfl, by cases r <;> rfl⟩

theorem dar (r : Reg) : Statement (.dar r) :=
  ⟨_, _, rfl, by cases r <;> rfl⟩

theorem andz (r : Reg) : Statement (.andz r) :=
  ⟨_, _, rfl, by cases r <;> rfl⟩

theorem andi (r : Reg) (v : Byte) : Statement (.andi r v) :=
  ⟨_, _, rfl, by cases r <;> rfl⟩

theorem andr (r : Reg) (i : Bool) (d : BitVec 7) : Statement (.andr r i d) :=
  ⟨_, _, rfl, by cases r <;> rfl⟩

theorem anda (r : Reg) (i : Bool) (ic : IndexControl) (a : Off) : Statement (.anda r i ic a) :=
  ⟨_, _, rfl, by cases r <;> rfl⟩

theorem iorz (r : Reg) : Statement (.iorz r) :=
  ⟨_, _, rfl, by cases r <;> rfl⟩

theorem iori (r : Reg) (v : Byte) : Statement (.iori r v) :=
  ⟨_, _, rfl, by cases r <;> rfl⟩

theorem iorr (r : Reg) (i : Bool) (d : BitVec 7) : Statement (.iorr r i d) :=
  ⟨_, _, rfl, by cases r <;> rfl⟩

theorem iora (r : Reg) (i : Bool) (ic : IndexControl) (a : Off) : Statement (.iora r i ic a) :=
  ⟨_, _, rfl, by cases r <;> rfl⟩

theorem eorz (r : Reg) : Statement (.eorz r) :=
  ⟨_, _, rfl, by cases r <;> rfl⟩

theorem eori (r : Reg) (v : Byte) : Statement (.eori r v) :=
  ⟨_, _, rfl, by cases r <;> rfl⟩

theorem eorr (r : Reg) (i : Bool) (d : BitVec 7) : Statement (.eorr r i d) :=
  ⟨_, _, rfl, by cases r <;> rfl⟩

theorem eora (r : Reg) (i : Bool) (ic : IndexControl) (a : Off) : Statement (.eora r i ic a) :=
  ⟨_, _, rfl, by cases r <;> rfl⟩

theorem comz (r : Reg) : Statement (.comz r) :=
  ⟨_, _, rfl, by cases r <;> rfl⟩

theorem comi (r : Reg) (v : Byte) : Statement (.comi r v) :=
  ⟨_, _, rfl, by cases r <;> rfl⟩

theorem comr (r : Reg) (i : Bool) (d : BitVec 7) : Statement (.comr r i d) :=
  ⟨_, _, rfl, by cases r <;> rfl⟩

theorem coma (r : Reg) (i : Bool) (ic : IndexControl) (a : Off) : Statement (.coma r i ic a) :=
  ⟨_, _, rfl, by cases r <;> rfl⟩

theorem rrl (r : Reg) : Statement (.rrl r) :=
  ⟨_, _, rfl, by cases r <;> rfl⟩

theorem rrr (r : Reg) : Statement (.rrr r) :=
  ⟨_, _, rfl, by cases r <;> rfl⟩

theorem lpsu : Statement .lpsu :=
  ⟨_, _, rfl, rfl⟩

theorem lpsl : Statement .lpsl :=
  ⟨_, _, rfl, rfl⟩

theorem spsu : Statement .spsu :=
  ⟨_, _, rfl, rfl⟩

theorem spsl : Statement .spsl :=
  ⟨_, _, rfl, rfl⟩

theorem ppsu (v : Byte) : Statement (.ppsu v) :=
  ⟨_, _, rfl, rfl⟩

theorem ppsl (v : Byte) : Statement (.ppsl v) :=
  ⟨_, _, rfl, rfl⟩

theorem cpsu (v : Byte) : Statement (.cpsu v) :=
  ⟨_, _, rfl, rfl⟩

theorem cpsl (v : Byte) : Statement (.cpsl v) :=
  ⟨_, _, rfl, rfl⟩

theorem tpsu (v : Byte) : Statement (.tpsu v) :=
  ⟨_, _, rfl, rfl⟩

theorem tpsl (v : Byte) : Statement (.tpsl v) :=
  ⟨_, _, rfl, rfl⟩

theorem bctr (v : BitVec 2) (i : Bool) (d : BitVec 7) : Statement (.bctr v i d) :=
  ⟨_, _, rfl, by
    show 2 = instrLength (opByte 6#6 v); revert v; decide⟩

theorem bcta (v : BitVec 2) (i : Bool) (a : Addr) : Statement (.bcta v i a) :=
  ⟨_, _, rfl, by
    show 3 = instrLength (opByte 7#6 v); revert v; decide⟩

theorem bcfr (v : BitVec 2) (i : Bool) (d : BitVec 7) : Statement (.bcfr v i d) :=
  ⟨_, _, rfl, by
    show 2 = instrLength (opByte 38#6 v); revert v; decide⟩

theorem bcfa (v : BitVec 2) (i : Bool) (a : Addr) : Statement (.bcfa v i a) :=
  ⟨_, _, rfl, by
    show 3 = instrLength (opByte 39#6 v); revert v; decide⟩

theorem brnr (r : Reg) (i : Bool) (d : BitVec 7) : Statement (.brnr r i d) :=
  ⟨_, _, rfl, by cases r <;> rfl⟩

theorem brna (r : Reg) (i : Bool) (a : Addr) : Statement (.brna r i a) :=
  ⟨_, _, rfl, by cases r <;> rfl⟩

theorem birr (r : Reg) (i : Bool) (d : BitVec 7) : Statement (.birr r i d) :=
  ⟨_, _, rfl, by cases r <;> rfl⟩

theorem bira (r : Reg) (i : Bool) (a : Addr) : Statement (.bira r i a) :=
  ⟨_, _, rfl, by cases r <;> rfl⟩

theorem bdrr (r : Reg) (i : Bool) (d : BitVec 7) : Statement (.bdrr r i d) :=
  ⟨_, _, rfl, by cases r <;> rfl⟩

theorem bdra (r : Reg) (i : Bool) (a : Addr) : Statement (.bdra r i a) :=
  ⟨_, _, rfl, by cases r <;> rfl⟩

theorem zbrr (i : Bool) (d : BitVec 7) : Statement (.zbrr i d) :=
  ⟨_, _, rfl, rfl⟩

theorem bxa (i : Bool) (a : Addr) : Statement (.bxa i a) :=
  ⟨_, _, rfl, rfl⟩

theorem bstr (v : BitVec 2) (i : Bool) (d : BitVec 7) : Statement (.bstr v i d) :=
  ⟨_, _, rfl, by
    show 2 = instrLength (opByte 14#6 v); revert v; decide⟩

theorem bsta (v : BitVec 2) (i : Bool) (a : Addr) : Statement (.bsta v i a) :=
  ⟨_, _, rfl, by
    show 3 = instrLength (opByte 15#6 v); revert v; decide⟩

theorem bsfr (v : BitVec 2) (i : Bool) (d : BitVec 7) : Statement (.bsfr v i d) :=
  ⟨_, _, rfl, by
    show 2 = instrLength (opByte 46#6 v); revert v; decide⟩

theorem bsfa (v : BitVec 2) (i : Bool) (a : Addr) : Statement (.bsfa v i a) :=
  ⟨_, _, rfl, by
    show 3 = instrLength (opByte 47#6 v); revert v; decide⟩

theorem bsnr (r : Reg) (i : Bool) (d : BitVec 7) : Statement (.bsnr r i d) :=
  ⟨_, _, rfl, by cases r <;> rfl⟩

theorem bsna (r : Reg) (i : Bool) (a : Addr) : Statement (.bsna r i a) :=
  ⟨_, _, rfl, by cases r <;> rfl⟩

theorem zbsr (i : Bool) (d : BitVec 7) : Statement (.zbsr i d) :=
  ⟨_, _, rfl, rfl⟩

theorem bsxa (i : Bool) (a : Addr) : Statement (.bsxa i a) :=
  ⟨_, _, rfl, rfl⟩

theorem retc (v : BitVec 2) : Statement (.retc v) :=
  ⟨_, _, rfl, by
    show 1 = instrLength (opByte 5#6 v); revert v; decide⟩

theorem rete (v : BitVec 2) : Statement (.rete v) :=
  ⟨_, _, rfl, by
    show 1 = instrLength (opByte 13#6 v); revert v; decide⟩

theorem redd (r : Reg) : Statement (.redd r) :=
  ⟨_, _, rfl, by cases r <;> rfl⟩

theorem redc (r : Reg) : Statement (.redc r) :=
  ⟨_, _, rfl, by cases r <;> rfl⟩

theorem rede (r : Reg) (port : Byte) : Statement (.rede r port) :=
  ⟨_, _, rfl, by cases r <;> rfl⟩

theorem wrtd (r : Reg) : Statement (.wrtd r) :=
  ⟨_, _, rfl, by cases r <;> rfl⟩

theorem wrtc (r : Reg) : Statement (.wrtc r) :=
  ⟨_, _, rfl, by cases r <;> rfl⟩

theorem wrte (r : Reg) (port : Byte) : Statement (.wrte r port) :=
  ⟨_, _, rfl, by cases r <;> rfl⟩

theorem nop : Statement .nop :=
  ⟨_, _, rfl, rfl⟩

theorem tmi (r : Reg) (v : Byte) : Statement (.tmi r v) :=
  ⟨_, _, rfl, by cases r <;> rfl⟩

theorem halt : Statement .halt :=
  ⟨_, _, rfl, rfl⟩

theorem indeterminate00 : Statement .indeterminate00 :=
  ⟨_, _, rfl, rfl⟩

theorem unassigned10 : Statement .unassigned10 :=
  ⟨_, _, rfl, rfl⟩

theorem unassigned11 : Statement .unassigned11 :=
  ⟨_, _, rfl, rfl⟩

theorem unassigned90 : Statement .unassigned90 :=
  ⟨_, _, rfl, rfl⟩

theorem unassigned91 : Statement .unassigned91 :=
  ⟨_, _, rfl, rfl⟩

theorem unassignedB6 : Statement .unassignedB6 :=
  ⟨_, _, rfl, rfl⟩

theorem unassignedB7 : Statement .unassignedB7 :=
  ⟨_, _, rfl, rfl⟩

theorem unassignedC4 : Statement .unassignedC4 :=
  ⟨_, _, rfl, rfl⟩

theorem unassignedC5 : Statement .unassignedC5 :=
  ⟨_, _, rfl, rfl⟩

theorem unassignedC6 : Statement .unassignedC6 :=
  ⟨_, _, rfl, rfl⟩

theorem unassignedC7 : Statement .unassignedC7 :=
  ⟨_, _, rfl, rfl⟩

end Sys2Proof.Laws.EncodeLength
end

