-- ==== Sys2Proof/Machine/Timing.lean ====
section
/-! DEFINITION. Cycle counts, a cost measure that no rule of the machine depends on (30_encoding.md R135, R136;
log entry 37). -/

namespace Sys2Proof.Machine

/-- Whether the indirect bit of an instruction is set (30_encoding.md R131). -/
def isIndirect : Instr → Bool
  | .lodr _ i _ | .strr _ i _ | .addr _ i _ | .subr _ i _ | .andr _ i _ | .iorr _ i _ | .eorr _ i _
  | .comr _ i _ | .brnr _ i _ | .birr _ i _ | .bdrr _ i _ | .bsnr _ i _ => i
  | .loda _ i _ _ | .stra _ i _ _ | .adda _ i _ _ | .suba _ i _ _ | .anda _ i _ _ | .iora _ i _ _
  | .eora _ i _ _ | .coma _ i _ _ => i
  | .bctr _ i _ | .bcfr _ i _ | .bstr _ i _ | .bsfr _ i _ => i
  | .bcta _ i _ | .bcfa _ i _ | .bsta _ i _ | .bsfa _ i _ => i
  | .brna _ i _ | .bira _ i _ | .bdra _ i _ | .bsna _ i _ => i
  | .zbrr i _ | .zbsr i _ => i
  | .bxa i _ | .bsxa i _ => i
  | _ => false

/-- The processor cycles of a class, with direct addressing (30_encoding.md R111). -/
def classCycles (b0 : Byte) : Nat :=
  match b0.extractLsb' 2 3 with
  | 0#3 | 1#3 | 4#3 => 2
  | 3#3 => 4
  | _ => 3

/-- The processor cycles of an instruction, two more when it is indirect (30_encoding.md R136); none is given
for the codes that are no instruction. -/
def cycles (i : Instr) : Option Nat :=
  match encode i with
  | [] => none
  | b0 :: _ =>
    if isUnassigned b0 then none else some (classCycles b0 + (if isIndirect i then 2 else 0))

/-- Clock periods: three for each processor cycle (70_reset_and_hazards.md R334). -/
def clockPeriods (i : Instr) : Option Nat := (cycles i).map (3 * ·)

end Sys2Proof.Machine
end

