-- ==== Sys2Proof/Tests/Slice0.lean ====
section
/-! SUPPORT. The tests: ill-formed terms refused, one word for each constructor, one-step vectors with the
outcomes that spec/95_test_vectors.md gives, and for each statement with hypotheses a state that meets them. -/

namespace Sys2Proof.Tests

open Sys2Proof.Machine

/-! ## WellFormed smoke -/

theorem test_ill_formed_register_zero :
    [Instr.lodz .r0, .strz .r0, .andz .r0].any Instr.wellFormed = false := by
  decide

theorem test_ill_formed_false_forms :
    [Instr.bcfr 3#2 false 0#7, .bcfa 3#2 false 0#15, .bsfr 3#2 false 0#7, .bsfa 3#2 false 0#15].any
      Instr.wellFormed = false := by
  decide

theorem test_well_formed_neighbours :
    [Instr.lodz .r1, .iorz .r0, .bcfr 2#2 false 0#7, .bctr 3#2 false 0#7].all Instr.wellFormed = true := by
  decide

/-! ## Decoding: words written out from the encodings of 30_encoding.md R135, R137, R141 and R142 -/

/-- Each list of bytes decodes to its instruction, with no byte left. -/
def allDecode (l : List (List Byte × Instr)) : Bool :=
  l.all fun p =>
    match decode p.1 with
    | .ok (j, []) => j == p.2
    | _ => false

theorem test_decode_load_store :
    allDecode [
     ([0b00000010#8], .lodz .r2),
     ([0b00000111#8, 0b11011011#8], .lodi .r3 0b11011011#8),
     ([0b00001001#8, 0b10011100#8], .lodr .r1 true 0b0011100#7),
     ([0b00001110#8, 0b01011101#8, 0b10000101#8], .loda .r2 false .autoDec 0b1110110000101#13),
     ([0b11000011#8], .strz .r3),
     ([0b11001001#8, 0b01110011#8], .strr .r1 false 0b1110011#7),
     ([0b11001110#8, 0b11101100#8, 0b00000100#8], .stra .r2 true .indexed 0b0110000000100#13)] = true := by
  decide

theorem test_decode_arithmetic :
    allDecode [
     ([0b10000011#8], .addz .r3),
     ([0b10000101#8, 0b11011110#8], .addi .r1 0b11011110#8),
     ([0b10001010#8, 0b01100111#8], .addr .r2 false 0b1100111#7),
     ([0b10001111#8, 0b10111111#8, 0b01011000#8], .adda .r3 true .autoInc 0b1111101011000#13),
     ([0b10010101#8], .dar .r1),
     ([0b10100010#8], .subz .r2),
     ([0b10100111#8, 0b10010111#8], .subi .r3 0b10010111#8),
     ([0b10101001#8, 0b11111000#8], .subr .r1 true 0b1111000#7),
     ([0b10101110#8, 0b00010111#8, 0b10000001#8], .suba .r2 false .plain 0b1011110000001#13)] = true := by
  decide

theorem test_decode_logical :
    allDecode [
     ([0b00100011#8], .eorz .r3),
     ([0b00100101#8, 0b00101011#8], .eori .r1 0b00101011#8),
     ([0b00101010#8, 0b11101100#8], .eorr .r2 true 0b1101100#7),
     ([0b00101111#8, 0b01001010#8, 0b11010101#8], .eora .r3 false .autoDec 0b0101011010101#13),
     ([0b01000001#8], .andz .r1),
     ([0b01000110#8, 0b10111111#8], .andi .r2 0b10111111#8),
     ([0b01001011#8, 0b11100000#8], .andr .r3 true 0b1100000#7),
     ([0b01001101#8, 0b00011110#8, 0b00101001#8], .anda .r1 false .plain 0b1111000101001#13),
     ([0b01100010#8], .iorz .r2),
     ([0b01100111#8, 0b01010011#8], .iori .r3 0b01010011#8),
     ([0b01101001#8, 0b11010100#8], .iorr .r1 true 0b1010100#7),
     ([0b01101110#8, 0b01010001#8, 0b01111101#8], .iora .r2 false .autoDec 0b1000101111101#13)] = true := by
  decide

theorem test_decode_compare_rotate :
    allDecode [
     ([0b01010011#8], .rrr .r3),
     ([0b11010001#8], .rrl .r1),
     ([0b11100010#8], .comz .r2),
     ([0b11100111#8, 0b00110001#8], .comi .r3 0b00110001#8),
     ([0b11101001#8, 0b10000010#8], .comr .r1 true 0b0000010#7),
     ([0b11101110#8, 0b00101110#8, 0b01111011#8], .coma .r2 false .autoInc 0b0111001111011#13)] = true := by
  decide

theorem test_decode_program_status :
    allDecode [
     ([0b00010010#8], .spsu),
     ([0b00010011#8], .spsl),
     ([0b01110100#8, 0b11101010#8], .cpsu 0b11101010#8),
     ([0b01110101#8, 0b00001111#8], .cpsl 0b00001111#8),
     ([0b01110110#8, 0b00110100#8], .ppsu 0b00110100#8),
     ([0b01110111#8, 0b01011001#8], .ppsl 0b01011001#8),
     ([0b10010010#8], .lpsu),
     ([0b10010011#8], .lpsl),
     ([0b10110100#8, 0b11001000#8], .tpsu 0b11001000#8),
     ([0b10110101#8, 0b11101101#8], .tpsl 0b11101101#8)] = true := by
  decide

theorem test_decode_branch :
    allDecode [
     ([0b00011000#8, 0b11011110#8], .bctr 0#2 true 0b1011110#7),
     ([0b00011101#8, 0b00111000#8, 0b00100111#8], .bcta 1#2 false 0b011100000100111#15),
     ([0b01011011#8, 0b10011000#8], .brnr .r3 true 0b0011000#7),
     ([0b01011101#8, 0b01001101#8, 0b10100001#8], .brna .r1 false 0b100110110100001#15),
     ([0b10011001#8, 0b11010010#8], .bcfr 1#2 true 0b1010010#7),
     ([0b10011011#8, 0b01101111#8], .zbrr false 0b1101111#7),
     ([0b10011100#8, 0b11101101#8, 0b11011000#8], .bcfa 0#2 true 0b110110111011000#15),
     ([0b10011111#8, 0b01111000#8, 0b10010101#8], .bxa false 0b111100010010101#15),
     ([0b11011011#8, 0b11000110#8], .birr .r3 true 0b1000110#7),
     ([0b11011101#8, 0b00001110#8, 0b00001111#8], .bira .r1 false 0b000111000001111#15),
     ([0b11111010#8, 0b10000000#8], .bdrr .r2 true 0b0000000#7),
     ([0b11111111#8, 0b00100011#8, 0b10001001#8], .bdra .r3 false 0b010001110001001#15)] = true := by
  decide

theorem test_decode_subroutine :
    allDecode [
     ([0b00010100#8], .retc 0#2),
     ([0b00110101#8], .rete 1#2),
     ([0b00111010#8, 0b11110100#8], .bstr 2#2 true 0b1110100#7),
     ([0b00111100#8, 0b01001110#8, 0b01111101#8], .bsta 0#2 false 0b100111001111101#15),
     ([0b01111010#8, 0b10101110#8], .bsnr .r2 true 0b0101110#7),
     ([0b01111111#8, 0b01100011#8, 0b11110111#8], .bsna .r3 false 0b110001111110111#15),
     ([0b10111000#8, 0b11101000#8], .bsfr 0#2 true 0b1101000#7),
     ([0b10111011#8, 0b00000101#8], .zbsr false 0b0000101#7),
     ([0b10111110#8, 0b10000100#8, 0b00101110#8], .bsfa 2#2 true 0b000010000101110#15),
     ([0b10111111#8, 0b00001110#8, 0b11101011#8], .bsxa false 0b000111011101011#15)] = true := by
  decide

theorem test_decode_input_output :
    allDecode [
     ([0b00110010#8], .redc .r2),
     ([0b01010111#8, 0b01100101#8], .rede .r3 0b01100101#8),
     ([0b01110001#8], .redd .r1),
     ([0b10110010#8], .wrtc .r2),
     ([0b11010111#8, 0b11010100#8], .wrte .r3 0b11010100#8),
     ([0b11110001#8], .wrtd .r1)] = true := by
  decide

theorem test_decode_misc :
    allDecode [
     ([0b01000000#8], .halt),
     ([0b11000000#8], .nop),
     ([0b11110101#8, 0b01101000#8], .tmi .r1 0b01101000#8)] = true := by
  decide

theorem test_decode_unassigned :
    allDecode [
     ([0b00000000#8], .indeterminate00),
     ([0b00010000#8], .unassigned10),
     ([0b00010001#8], .unassigned11),
     ([0b10010000#8], .unassigned90),
     ([0b10010001#8], .unassigned91),
     ([0b10110110#8], .unassignedB6),
     ([0b10110111#8], .unassignedB7),
     ([0b11000100#8], .unassignedC4),
     ([0b11000101#8], .unassignedC5),
     ([0b11000110#8], .unassignedC6),
     ([0b11000111#8], .unassignedC7)] = true := by
  decide

/-- A list that ends before its instruction is rejected. -/
theorem test_decode_truncated : decode [0x0E#8, 0x80#8] = .error (.truncated 0x0E#8) := by
  rfl

/-- The bytes after an instruction are left. -/
theorem test_decode_rest : decode [0xC0#8, 0x40#8] = .ok (.nop, [0x40#8]) := by
  rfl

/-- `BCTA,3 *H'0234'` as the table numbers its bits: byte 0 lowest. -/
theorem test_table_word : decodeTableWord 24 0x34821F = some (.bcta 3#2 true 0x0234#15) := by
  decide

/-! ## One step -/

/-- The start of the vectors: IAR 0100, all else as after reset. -/
def base : State := { State.reset with iar := 0x0100#15 }

/-- No answer and no pin event. -/
def noEnv : Env := State.reset.env

/-- INTREQ asserted at one boundary. -/
def requested : Pins := { intreq := true, pause := false, reset := false }

/-- The bytes of a list put into memory. -/
def poked (bytes : List (Nat × Byte)) (s : State) : State :=
  { s with mem := bytes.foldl (fun m b => Memory.insert m b.1 b.2) s.mem }

/-- The step answers a next state, and `p` holds of it. -/
def endsIn (s : State) (p : State → Bool) : Bool :=
  match step s with
  | .next t => p t
  | _ => false

/-! ### Load and store -/

/-- LS1: LODZ R1 -/
theorem test_lodz_LS1 :
    endsIn (poked [(0x0100, 0x01#8)] { base with r1 := 0x80#8, r0 := 0x11#8 })
      (fun t => t.r0 == 0x80#8 && t.psl == 0x80#8 && t.iar == 0x0101#15) = true := by
  decide

/-- LS2: LODZ R2 -/
theorem test_lodz_LS2 :
    endsIn (poked [(0x0100, 0x02#8)] { base with psl := 0x10#8, r0 := 0x55#8, r2 := 0x77#8, r2' := 0x00#8 })
      (fun t => t.r0 == 0x00#8 && t.psl == 0x10#8 && t.iar == 0x0101#15) = true := by
  decide

/-- LS4: LODI,R3 H'7F' -/
theorem test_lodi_LS4 :
    endsIn (poked [(0x0100, 0x07#8), (0x0101, 0x7F#8)] base)
      (fun t => t.r3 == 0x7F#8 && t.psl == 0x40#8 && t.iar == 0x0102#15) = true := by
  decide

/-- LS5: LODI,R0 H'00' -/
theorem test_lodi_LS5 :
    endsIn (poked [(0x0100, 0x04#8), (0x0101, 0x00#8)] { base with r0 := 0x99#8, psl := 0x80#8 })
      (fun t => t.r0 == 0x00#8 && t.psl == 0x00#8 && t.iar == 0x0102#15) = true := by
  decide

/-- LS8: LODR,R0 (d = -4) -/
theorem test_lodr_LS8 :
    endsIn (poked [(0x1FFE, 0x5A#8), (0x0000, 0x08#8), (0x0001, 0x7C#8)] { base with iar := 0x0000#15 })
      (fun t => t.r0 == 0x5A#8 && t.psl == 0x40#8 && t.iar == 0x0002#15) = true := by
  decide

/-- LS10: LODR,R3 *(d = +2) -/
theorem test_lodr_LS10 :
    endsIn (poked [(0x0104, 0xC1#8), (0x0105, 0x23#8), (0x4123, 0xEE#8), (0x0100, 0x0B#8), (0x0101, 0x82#8)]
        base)
      (fun t => t.r3 == 0xEE#8 && t.psl == 0x80#8 && t.iar == 0x0102#15) = true := by
  decide

/-- LS14: LODA,R0 H'0200',R2,+ -/
theorem test_loda_LS14 :
    endsIn (poked [(0x0200, 0x80#8), (0x0100, 0x0E#8), (0x0101, 0x22#8), (0x0102, 0x00#8)]
        { base with r2 := 0xFF#8 })
      (fun t => t.r0 == 0x80#8 && t.r2 == 0x00#8 && t.psl == 0x80#8 && t.iar == 0x0103#15) = true := by
  decide

/-- LS17: LODA,R0 *H'0200',R2 -/
theorem test_loda_LS17 :
    endsIn (poked [(0x0200, 0x41#8), (0x0201, 0x00#8), (0x4110, 0x99#8), (0x0100, 0x0E#8), (0x0101,
        0xE2#8), (0x0102, 0x00#8)]
        { base with r2 := 0x10#8 })
      (fun t => t.r0 == 0x99#8 && t.psl == 0x80#8 && t.iar == 0x0103#15) = true := by
  decide

/-- LS20: STRZ R3 -/
theorem test_strz_LS20 :
    endsIn (poked [(0x0100, 0xC3#8)] { base with r0 := 0x00#8, r3 := 0x01#8, r3' := 0x02#8, psl := 0x50#8 })
      (fun t => t.r3' == 0x00#8 && t.psl == 0x10#8 && t.iar == 0x0101#15) = true := by
  decide

/-- LS22: STRR,R0 *(d = -2) -/
theorem test_strr_LS22 :
    endsIn (poked [(0x0100, 0xC8#8), (0x0101, 0xFE#8)] { base with r0 := 0x12#8 })
      (fun t => t.psl == 0x00#8 && t.iar == 0x0102#15 && t.mem.read 0x48FE#15 == 0x12#8) = true := by
  decide

/-- LS24: STRA,R0 H'0300',R2,+ -/
theorem test_stra_LS24 :
    endsIn (poked [(0x0100, 0xCE#8), (0x0101, 0x23#8), (0x0102, 0x00#8)]
        { base with r2 := 0x04#8, r0 := 0xDD#8 })
      (fun t => t.r2 == 0x05#8 && t.psl == 0x00#8 && t.iar == 0x0103#15 &&
        t.mem.read 0x0305#15 == 0xDD#8) = true := by
  decide

/-- LS25: STRA,R0 H'0300',R0,- -/
theorem test_stra_LS25 :
    endsIn (poked [(0x0300, 0xFF#8), (0x0100, 0xCC#8), (0x0101, 0x43#8), (0x0102, 0x00#8)]
        { base with r0 := 0x01#8 })
      (fun t => t.r0 == 0x00#8 && t.psl == 0x00#8 && t.iar == 0x0103#15 &&
        t.mem.read 0x0300#15 == 0x00#8) = true := by
  decide


/-! ### Arithmetic -/

/-- AR1: ADDZ R1 -/
theorem test_addz_AR1 :
    endsIn (poked [(0x0100, 0x81#8)] { base with r0 := 0x7C#8, r1 := 0x40#8 })
      (fun t => t.r0 == 0xBC#8 && t.psl == 0x84#8 && t.iar == 0x0101#15) = true := by
  decide

/-- AR5: ADDZ R0 -/
theorem test_addz_AR5 :
    endsIn (poked [(0x0100, 0x80#8)] { base with r0 := 0x80#8 })
      (fun t => t.r0 == 0x00#8 && t.psl == 0x05#8 && t.iar == 0x0101#15) = true := by
  decide

/-- AR3: ADDI,R2 H'00' -/
theorem test_addi_AR3 :
    endsIn (poked [(0x0100, 0x86#8), (0x0101, 0x00#8)] { base with r2 := 0x0F#8, psl := 0x09#8 })
      (fun t => t.r2 == 0x10#8 && t.psl == 0x68#8 && t.iar == 0x0102#15) = true := by
  decide

/-- AR4: ADDI,R2 H'01' -/
theorem test_addi_AR4 :
    endsIn (poked [(0x0100, 0x86#8), (0x0101, 0x01#8)] { base with r2 := 0x01#8, psl := 0x01#8 })
      (fun t => t.r2 == 0x02#8 && t.psl == 0x40#8 && t.iar == 0x0102#15) = true := by
  decide

/-- AR7: ADDR,R3 $+4 -/
theorem test_addr_AR7 :
    endsIn (poked [(0x0104, 0x29#8), (0x0100, 0x8B#8), (0x0101, 0x02#8)] { base with r3 := 0x38#8 })
      (fun t => t.r3 == 0x61#8 && t.psl == 0x60#8 && t.iar == 0x0102#15) = true := by
  decide

/-- AR8: ADDA,R2 H'0400' -/
theorem test_adda_AR8 :
    endsIn (poked [(0x0400, 0x90#8), (0x0100, 0x8E#8), (0x0101, 0x04#8), (0x0102, 0x00#8)]
        { base with r2 := 0x90#8 })
      (fun t => t.r2 == 0x20#8 && t.psl == 0x45#8 && t.iar == 0x0103#15) = true := by
  decide

/-- AR9: ADDA,R0 H'0400',R1,+ -/
theorem test_adda_AR9 :
    endsIn (poked [(0x0401, 0x02#8), (0x0100, 0x8D#8), (0x0101, 0x24#8), (0x0102, 0x00#8)]
        { base with r0 := 0x01#8, r1 := 0x00#8 })
      (fun t => t.r0 == 0x03#8 && t.r1 == 0x01#8 && t.psl == 0x40#8 && t.iar == 0x0103#15) = true := by
  decide

/-- AR17: SUBZ R3 -/
theorem test_subz_AR17 :
    endsIn (poked [(0x0100, 0xA3#8)] { base with r0 := 0x10#8, r3 := 0x01#8 })
      (fun t => t.r0 == 0x0F#8 && t.psl == 0x41#8 && t.iar == 0x0101#15) = true := by
  decide

/-- AR13: SUBI,R2 H'02' -/
theorem test_subi_AR13 :
    endsIn (poked [(0x0100, 0xA6#8), (0x0101, 0x02#8)] { base with r2 := 0x05#8, psl := 0x08#8 })
      (fun t => t.r2 == 0x02#8 && t.psl == 0x69#8 && t.iar == 0x0102#15) = true := by
  decide

/-- AR15: SUBI,R0 H'80' -/
theorem test_subi_AR15 :
    endsIn (poked [(0x0100, 0xA4#8), (0x0101, 0x80#8)] { base with r0 := 0x00#8 })
      (fun t => t.r0 == 0x80#8 && t.psl == 0xA4#8 && t.iar == 0x0102#15) = true := by
  decide

/-- AR18: SUBR,R1 $+3 -/
theorem test_subr_AR18 :
    endsIn (poked [(0x0103, 0x01#8), (0x0100, 0xA9#8), (0x0101, 0x01#8)] { base with r1 := 0x00#8 })
      (fun t => t.r1 == 0xFF#8 && t.psl == 0x80#8 && t.iar == 0x0102#15) = true := by
  decide

/-- AR19: SUBA,R0 H'0500',R3 -/
theorem test_suba_AR19 :
    endsIn (poked [(0x0502, 0x30#8), (0x0100, 0xAF#8), (0x0101, 0x65#8), (0x0102, 0x00#8)]
        { base with r0 := 0x50#8, r3 := 0x02#8 })
      (fun t => t.r0 == 0x20#8 && t.psl == 0x61#8 && t.iar == 0x0103#15) = true := by
  decide

/-- AR20: DAR,R1 -/
theorem test_dar_AR20 :
    endsIn (poked [(0x0100, 0x95#8)] { base with r1 := 0x8B#8, psl := 0x00#8 })
      (fun t => t.r1 == 0x25#8 && t.iar == 0x0101#15) = true := by
  decide

/-- AR22: DAR,R2 -/
theorem test_dar_AR22 :
    endsIn (poked [(0x0100, 0x96#8)] { base with r2 := 0x89#8, psl := 0x01#8 })
      (fun t => t.r2 == 0x83#8 && t.iar == 0x0101#15) = true := by
  decide


/-! ### Logical -/

/-- LG1: ANDZ R1 -/
theorem test_andz_LG1 :
    endsIn (poked [(0x0100, 0x41#8)] { base with r0 := 0xF0#8, r1 := 0x3C#8, psl := 0x2D#8 })
      (fun t => t.r0 == 0x30#8 && t.psl == 0x6D#8 && t.iar == 0x0101#15) = true := by
  decide

/-- LG2: ANDI,R2 H'0F' -/
theorem test_andi_LG2 :
    endsIn (poked [(0x0100, 0x46#8), (0x0101, 0x0F#8)] { base with r2 := 0xF0#8 })
      (fun t => t.r2 == 0x00#8 && t.psl == 0x00#8 && t.iar == 0x0102#15) = true := by
  decide

/-- LG3: ANDR,R3 $+2 -/
theorem test_andr_LG3 :
    endsIn (poked [(0x0102, 0x80#8), (0x0100, 0x4B#8), (0x0101, 0x00#8)] { base with r3 := 0xFF#8 })
      (fun t => t.r3 == 0x80#8 && t.psl == 0x80#8 && t.iar == 0x0102#15) = true := by
  decide

/-- LG5: ANDA,R0 H'0600',R2,- -/
theorem test_anda_LG5 :
    endsIn (poked [(0x0600, 0xA5#8), (0x0100, 0x4E#8), (0x0101, 0x46#8), (0x0102, 0x00#8)]
        { base with r0 := 0xFF#8, r2 := 0x01#8 })
      (fun t => t.r0 == 0xA5#8 && t.r2 == 0x00#8 && t.psl == 0x80#8 && t.iar == 0x0103#15) = true := by
  decide

/-- LG7: IORZ R2 -/
theorem test_iorz_LG7 :
    endsIn (poked [(0x0100, 0x62#8)] { base with r0 := 0x01#8, r2 := 0x10#8 })
      (fun t => t.r0 == 0x11#8 && t.psl == 0x40#8 && t.iar == 0x0101#15) = true := by
  decide

/-- LG8: IORI,R1 H'80' -/
theorem test_iori_LG8 :
    endsIn (poked [(0x0100, 0x65#8), (0x0101, 0x80#8)] { base with r1 := 0x01#8 })
      (fun t => t.r1 == 0x81#8 && t.psl == 0x80#8 && t.iar == 0x0102#15) = true := by
  decide

/-- LG9: IORR,R2 $+4 -/
theorem test_iorr_LG9 :
    endsIn (poked [(0x0104, 0x00#8), (0x0100, 0x6A#8), (0x0101, 0x02#8)] { base with r2 := 0x00#8 })
      (fun t => t.psl == 0x00#8 && t.iar == 0x0102#15) = true := by
  decide

/-- LG10: IORA,R3 *H'0010' -/
theorem test_iora_LG10 :
    endsIn (poked [(0x0010, 0x20#8), (0x0011, 0x00#8), (0x2000, 0x50#8), (0x0100, 0x6F#8), (0x0101,
        0x80#8), (0x0102, 0x10#8)]
        { base with r3 := 0x0A#8 })
      (fun t => t.r3 == 0x5A#8 && t.psl == 0x40#8 && t.iar == 0x0103#15) = true := by
  decide

/-- LG12: EORZ R1 -/
theorem test_eorz_LG12 :
    endsIn (poked [(0x0100, 0x21#8)] { base with r0 := 0xFF#8, r1 := 0x0F#8 })
      (fun t => t.r0 == 0xF0#8 && t.psl == 0x80#8 && t.iar == 0x0101#15) = true := by
  decide

/-- LG13: EORI,R2 H'FF' -/
theorem test_eori_LG13 :
    endsIn (poked [(0x0100, 0x26#8), (0x0101, 0xFF#8)] { base with r2 := 0x7F#8 })
      (fun t => t.r2 == 0x80#8 && t.psl == 0x80#8 && t.iar == 0x0102#15) = true := by
  decide

/-- LG14: EORR,R1 $+2 -/
theorem test_eorr_LG14 :
    endsIn (poked [(0x0102, 0x29#8), (0x0100, 0x29#8), (0x0101, 0x00#8)] { base with r1 := 0x29#8 })
      (fun t => t.r1 == 0x00#8 && t.psl == 0x00#8 && t.iar == 0x0102#15) = true := by
  decide

/-- LG15: EORA,R0 H'0700',R1 -/
theorem test_eora_LG15 :
    endsIn (poked [(0x07FF, 0x10#8), (0x0100, 0x2D#8), (0x0101, 0x67#8), (0x0102, 0x00#8)]
        { base with r0 := 0x11#8, r1 := 0xFF#8 })
      (fun t => t.r0 == 0x01#8 && t.psl == 0x40#8 && t.iar == 0x0103#15) = true := by
  decide


/-! ### Compare and rotate -/

/-- CR1: COMZ R1 -/
theorem test_comz_CR1 :
    endsIn (poked [(0x0100, 0xE1#8)] { base with r0 := 0x80#8, r1 := 0x01#8 })
      (fun t => t.psl == 0x80#8 && t.iar == 0x0101#15) = true := by
  decide

/-- CR2: COMZ R1 -/
theorem test_comz_CR2 :
    endsIn (poked [(0x0100, 0xE1#8)] { base with r0 := 0x80#8, r1 := 0x01#8, psl := 0x02#8 })
      (fun t => t.psl == 0x42#8 && t.iar == 0x0101#15) = true := by
  decide

/-- CR5: COMI,R2 H'FF' -/
theorem test_comi_CR5 :
    endsIn (poked [(0x0100, 0xE6#8), (0x0101, 0xFF#8)] { base with r2 := 0x00#8 })
      (fun t => t.psl == 0x40#8 && t.iar == 0x0102#15) = true := by
  decide

/-- CR6: COMI,R2 H'FF' -/
theorem test_comi_CR6 :
    endsIn (poked [(0x0100, 0xE6#8), (0x0101, 0xFF#8)] { base with r2 := 0x00#8, psl := 0x02#8 })
      (fun t => t.psl == 0x82#8 && t.iar == 0x0102#15) = true := by
  decide

/-- CR7: COMR,R3 $+5 -/
theorem test_comr_CR7 :
    endsIn (poked [(0x0105, 0x20#8), (0x0100, 0xEB#8), (0x0101, 0x03#8)]
        { base with r3 := 0x10#8, psl := 0x2D#8 })
      (fun t => t.psl == 0xAD#8 && t.iar == 0x0102#15) = true := by
  decide

/-- CR8: COMA,R1 H'0800' -/
theorem test_coma_CR8 :
    endsIn (poked [(0x0800, 0x80#8), (0x0100, 0xED#8), (0x0101, 0x08#8), (0x0102, 0x00#8)]
        { base with r1 := 0x81#8 })
      (fun t => t.psl == 0x40#8 && t.iar == 0x0103#15) = true := by
  decide

/-- CR9: COMA,R0 H'0800',R1 -/
theorem test_coma_CR9 :
    endsIn (poked [(0x0803, 0x05#8), (0x0100, 0xED#8), (0x0101, 0x68#8), (0x0102, 0x00#8)]
        { base with r0 := 0x05#8, r1 := 0x03#8 })
      (fun t => t.psl == 0x00#8 && t.iar == 0x0103#15) = true := by
  decide

/-- CR11: RRL,R1 -/
theorem test_rrl_CR11 :
    endsIn (poked [(0x0100, 0xD1#8)] { base with r1 := 0x81#8, psl := 0x08#8 })
      (fun t => t.r1 == 0x02#8 && t.psl == 0x4D#8 && t.iar == 0x0101#15) = true := by
  decide

/-- CR13: RRL,R0 -/
theorem test_rrl_CR13 :
    endsIn (poked [(0x0100, 0xD0#8)] { base with r0 := 0x10#8, psl := 0x0C#8 })
      (fun t => t.r0 == 0x20#8 && t.psl == 0x68#8 && t.iar == 0x0101#15) = true := by
  decide

/-- CR14: RRR,R1 -/
theorem test_rrr_CR14 :
    endsIn (poked [(0x0100, 0x51#8)] { base with r1 := 0x01#8 })
      (fun t => t.r1 == 0x80#8 && t.psl == 0x80#8 && t.iar == 0x0101#15) = true := by
  decide

/-- CR16: RRR,R3 -/
theorem test_rrr_CR16 :
    endsIn (poked [(0x0100, 0x53#8)] { base with r3 := 0x40#8, psl := 0x08#8 })
      (fun t => t.r3 == 0x20#8 && t.psl == 0x68#8 && t.iar == 0x0101#15) = true := by
  decide


/-! ### Program status -/

/-- PS1: LPSU -/
theorem test_lpsu_PS1 :
    endsIn (poked [(0x0100, 0x92#8)] { base with r0 := 0xFF#8 })
      (fun t => t.psl == 0x00#8 && t.f == true && t.ii == true && t.sp == 7#3 &&
        t.iar == 0x0101#15) = true := by
  decide

/-- PS2: SPSU -/
theorem test_spsu_PS2 :
    endsIn (poked [(0x0100, 0x12#8)]
        { base with
          r0 := 0x00#8
          f := true
          ii := true
          sp := 7#3
          env := { noEnv with senses := [true] } })
      (fun t => t.r0 == 0xE7#8 && t.psl == 0x80#8 && t.iar == 0x0101#15) = true := by
  decide

/-- PS4: LPSL -/
theorem test_lpsl_PS4 :
    endsIn (poked [(0x0100, 0x93#8)] { base with r0 := 0xD2#8 })
      (fun t => t.psl == 0xD2#8 && t.iar == 0x0101#15) = true := by
  decide

/-- PS5: SPSL -/
theorem test_spsl_PS5 :
    endsIn (poked [(0x0100, 0x13#8)] { base with psl := 0xC9#8 })
      (fun t => t.r0 == 0xC9#8 && t.psl == 0x89#8 && t.iar == 0x0101#15) = true := by
  decide

/-- PS6: PPSU H'64' -/
theorem test_ppsu_PS6 :
    endsIn (poked [(0x0100, 0x76#8), (0x0101, 0x64#8)] { base with sp := 1#3 })
      (fun t => t.psl == 0x00#8 && t.f == true && t.ii == true && t.sp == 5#3 &&
        t.iar == 0x0102#15) = true := by
  decide

/-- PS8: PPSL H'0A' -/
theorem test_ppsl_PS8 :
    endsIn (poked [(0x0100, 0x77#8), (0x0101, 0x0A#8)] { base with psl := 0x40#8 })
      (fun t => t.psl == 0x4A#8 && t.iar == 0x0102#15) = true := by
  decide

/-- PS9: CPSU H'20' -/
theorem test_cpsu_PS9 :
    endsIn (poked [(0x0100, 0x74#8), (0x0101, 0x20#8)] { base with ii := true, f := true, sp := 3#3 })
      (fun t => t.psl == 0x00#8 && t.ii == false && t.iar == 0x0102#15) = true := by
  decide

/-- PS11: CPSL H'C9' -/
theorem test_cpsl_PS11 :
    endsIn (poked [(0x0100, 0x75#8), (0x0101, 0xC9#8)] { base with psl := 0xFF#8 })
      (fun t => t.psl == 0x36#8 && t.iar == 0x0102#15) = true := by
  decide

/-- PS12: TPSU H'60' -/
theorem test_tpsu_PS12 :
    endsIn (poked [(0x0100, 0xB4#8), (0x0101, 0x60#8)]
        { base with f := true, ii := true, env := { noEnv with senses := [false] } })
      (fun t => t.psl == 0x00#8 && t.iar == 0x0102#15) = true := by
  decide

/-- PS13: TPSU H'80' -/
theorem test_tpsu_PS13 :
    endsIn (poked [(0x0100, 0xB4#8), (0x0101,
        0x80#8)] { base with env := { noEnv with senses := [false] } })
      (fun t => t.psl == 0x80#8 && t.iar == 0x0102#15) = true := by
  decide

/-- PS15: TPSL H'05' -/
theorem test_tpsl_PS15 :
    endsIn (poked [(0x0100, 0xB5#8), (0x0101, 0x05#8)] { base with psl := 0x45#8 })
      (fun t => t.psl == 0x05#8 && t.iar == 0x0102#15) = true := by
  decide

/-- PS16: TPSL H'08' -/
theorem test_tpsl_PS16 :
    endsIn (poked [(0x0100, 0xB5#8), (0x0101, 0x08#8)] { base with psl := 0x45#8 })
      (fun t => t.psl == 0x85#8 && t.iar == 0x0102#15) = true := by
  decide


/-! ### Branch -/

/-- BR4: BCTR,2 *$+4 -/
theorem test_bctr_BR4 :
    endsIn (poked [(0x0104, 0x60#8), (0x0105, 0x10#8), (0x0100, 0x1A#8), (0x0101, 0x82#8)]
        { base with psl := 0x80#8 })
      (fun t => t.psl == 0x80#8 && t.iar == 0x6010#15) = true := by
  decide

/-- BR31: BCTR,3 (d = -64) -/
theorem test_bctr_BR31 :
    endsIn (poked [(0x2000, 0x1B#8), (0x2001, 0x40#8)] { base with iar := 0x2000#15 })
      (fun t => t.psl == 0x00#8 && t.iar == 0x3FC2#15) = true := by
  decide

/-- BR5: BCTA,1 H'2345' -/
theorem test_bcta_BR5 :
    endsIn (poked [(0x0100, 0x1D#8), (0x0101, 0x23#8), (0x0102, 0x45#8)] { base with psl := 0x40#8 })
      (fun t => t.psl == 0x40#8 && t.iar == 0x2345#15) = true := by
  decide

/-- BR7: BCTA,3 *H'2234' -/
theorem test_bcta_BR7 :
    endsIn (poked [(0x2234, 0x40#8), (0x2235, 0x00#8), (0x0234, 0x11#8), (0x0235, 0x11#8), (0x0100,
        0x1F#8), (0x0101, 0xA2#8), (0x0102, 0x34#8)]
        base)
      (fun t => t.psl == 0x00#8 && t.iar == 0x4000#15) = true := by
  decide

/-- BR9: BCFR,0 $+6 -/
theorem test_bcfr_BR9 :
    endsIn (poked [(0x0100, 0x98#8), (0x0101, 0x04#8)] { base with psl := 0x00#8 })
      (fun t => t.psl == 0x00#8 && t.iar == 0x0102#15) = true := by
  decide

/-- BR10: BCFR,0 $+6 -/
theorem test_bcfr_BR10 :
    endsIn (poked [(0x0100, 0x98#8), (0x0101, 0x04#8)] { base with psl := 0xC0#8 })
      (fun t => t.psl == 0xC0#8 && t.iar == 0x0106#15) = true := by
  decide

/-- BR12: BCFA,2 H'0300' -/
theorem test_bcfa_BR12 :
    endsIn (poked [(0x0100, 0x9E#8), (0x0101, 0x03#8), (0x0102, 0x00#8)] { base with psl := 0x80#8 })
      (fun t => t.psl == 0x80#8 && t.iar == 0x0103#15) = true := by
  decide

/-- BR13: BRNR,R1 $+10 -/
theorem test_brnr_BR13 :
    endsIn (poked [(0x0100, 0x59#8), (0x0101, 0x08#8)] { base with r1 := 0x01#8 })
      (fun t => t.psl == 0x00#8 && t.iar == 0x010A#15) = true := by
  decide

/-- BR14: BRNR,R1 $+10 -/
theorem test_brnr_BR14 :
    endsIn (poked [(0x0100, 0x59#8), (0x0101, 0x08#8)] { base with r1 := 0x00#8 })
      (fun t => t.psl == 0x00#8 && t.iar == 0x0102#15) = true := by
  decide

/-- BR15: BRNA,R0 H'7FFF' -/
theorem test_brna_BR15 :
    endsIn (poked [(0x0100, 0x5C#8), (0x0101, 0x7F#8), (0x0102, 0xFF#8)] { base with r0 := 0x80#8 })
      (fun t => t.psl == 0x00#8 && t.iar == 0x7FFF#15) = true := by
  decide

/-- BR16: BIRR,R2 $-3 -/
theorem test_birr_BR16 :
    endsIn (poked [(0x0100, 0xDA#8), (0x0101, 0x7B#8)] { base with r2 := 0xFF#8, psl := 0x80#8 })
      (fun t => t.r2 == 0x00#8 && t.psl == 0x80#8 && t.iar == 0x0102#15) = true := by
  decide

/-- BR17: BIRR,R2 $-3 -/
theorem test_birr_BR17 :
    endsIn (poked [(0x0100, 0xDA#8), (0x0101, 0x7B#8)] { base with r2 := 0x00#8 })
      (fun t => t.r2 == 0x01#8 && t.psl == 0x00#8 && t.iar == 0x00FD#15) = true := by
  decide

/-- BR18: BIRA,R3 H'0400' -/
theorem test_bira_BR18 :
    endsIn (poked [(0x0100, 0xDF#8), (0x0101, 0x04#8), (0x0102, 0x00#8)] { base with r3 := 0x7F#8 })
      (fun t => t.r3 == 0x80#8 && t.psl == 0x00#8 && t.iar == 0x0400#15) = true := by
  decide

/-- BR19: BDRR,R1 $+2 -/
theorem test_bdrr_BR19 :
    endsIn (poked [(0x0100, 0xF9#8), (0x0101, 0x00#8)] { base with r1 := 0x01#8 })
      (fun t => t.r1 == 0x00#8 && t.psl == 0x00#8 && t.iar == 0x0102#15) = true := by
  decide

/-- BR20: BDRR,R1 $ -/
theorem test_bdrr_BR20 :
    endsIn (poked [(0x0100, 0xF9#8), (0x0101, 0x7E#8)] { base with r1 := 0x00#8 })
      (fun t => t.r1 == 0xFF#8 && t.psl == 0x00#8 && t.iar == 0x0100#15) = true := by
  decide

/-- BR21: BDRA,R0 *H'0010' -/
theorem test_bdra_BR21 :
    endsIn (poked [(0x0010, 0x05#8), (0x0011, 0x00#8), (0x0100, 0xFC#8), (0x0101, 0x80#8), (0x0102, 0x10#8)]
        { base with r0 := 0x02#8 })
      (fun t => t.r0 == 0x01#8 && t.psl == 0x00#8 && t.iar == 0x0500#15) = true := by
  decide

/-- BR22: BDRA,R0 *H'0010' -/
theorem test_bdra_BR22 :
    endsIn (poked [(0x0010, 0x05#8), (0x0011, 0x00#8), (0x0100, 0xFC#8), (0x0101, 0x80#8), (0x0102, 0x10#8)]
        { base with r0 := 0x01#8 })
      (fun t => t.r0 == 0x00#8 && t.psl == 0x00#8 && t.iar == 0x0103#15) = true := by
  decide

/-- BR23: ZBRR -8 -/
theorem test_zbrr_BR23 :
    endsIn (poked [(0x4100, 0x9B#8), (0x4101, 0x78#8)] { base with iar := 0x4100#15 })
      (fun t => t.psl == 0x00#8 && t.iar == 0x1FF8#15) = true := by
  decide

/-- BR25: ZBRR *+2 -/
theorem test_zbrr_BR25 :
    endsIn (poked [(0x0002, 0x7A#8), (0x0003, 0xBC#8), (0x2002, 0x01#8), (0x2003, 0x01#8), (0x2100,
        0x9B#8), (0x2101, 0x82#8)]
        { base with iar := 0x2100#15 })
      (fun t => t.psl == 0x00#8 && t.iar == 0x7ABC#15) = true := by
  decide

/-- BR27: BXA H'0400',R3 -/
theorem test_bxa_BR27 :
    endsIn (poked [(0x0100, 0x9F#8), (0x0101, 0x04#8), (0x0102, 0x00#8)]
        { base with r3 := 0x21#8, r3' := 0x42#8, psl := 0x10#8 })
      (fun t => t.psl == 0x10#8 && t.iar == 0x0442#15) = true := by
  decide

/-- BR28: BXA H'3FFF',R3 -/
theorem test_bxa_BR28 :
    endsIn (poked [(0x0100, 0x9F#8), (0x0101, 0x3F#8), (0x0102, 0xFF#8)] { base with r3 := 0x02#8 })
      (fun t => t.psl == 0x00#8 && t.iar == 0x2001#15) = true := by
  decide


/-! ### Subroutine branch and return -/

/-- SB1: BSTR,3 $+18 -/
theorem test_bstr_SB1 :
    endsIn (poked [(0x0100, 0x3B#8), (0x0101, 0x10#8)] base)
      (fun t => t.psl == 0x00#8 && t.sp == 1#3 && rasGet t.ras 1#3 == 0x0102#15 &&
        t.iar == 0x0112#15) = true := by
  decide

/-- SB13: BSTR,3 $+2 -/
theorem test_bstr_SB13 :
    endsIn (poked [(0x0100, 0x3B#8), (0x0101, 0x00#8)]
        { base with sp := 7#3, ras := rasSet State.reset.ras 0#3 0x0AAA#15 })
      (fun t => t.psl == 0x00#8 && t.sp == 0#3 && rasGet t.ras 0#3 == 0x0102#15 &&
        t.iar == 0x0102#15) = true := by
  decide

/-- SB2: BSTA,0 H'2000' -/
theorem test_bsta_SB2 :
    endsIn (poked [(0x0100, 0x3C#8), (0x0101, 0x20#8), (0x0102, 0x00#8)]
        { base with psl := 0x00#8, sp := 2#3 })
      (fun t => t.psl == 0x00#8 && t.sp == 3#3 && rasGet t.ras 3#3 == 0x0103#15 &&
        t.iar == 0x2000#15) = true := by
  decide

/-- SB3: BSTA,0 H'2000' -/
theorem test_bsta_SB3 :
    endsIn (poked [(0x0100, 0x3C#8), (0x0101, 0x20#8), (0x0102, 0x00#8)]
        { base with psl := 0x40#8, sp := 2#3 })
      (fun t => t.psl == 0x40#8 && t.iar == 0x0103#15) = true := by
  decide

/-- SB4: BSFR,1 $+4 -/
theorem test_bsfr_SB4 :
    endsIn (poked [(0x0100, 0xB9#8), (0x0101, 0x02#8)] { base with psl := 0x80#8 })
      (fun t => t.psl == 0x80#8 && t.sp == 1#3 && rasGet t.ras 1#3 == 0x0102#15 &&
        t.iar == 0x0104#15) = true := by
  decide

/-- SB5: BSFR,1 $+4 -/
theorem test_bsfr_SB5 :
    endsIn (poked [(0x0100, 0xB9#8), (0x0101, 0x02#8)] { base with psl := 0x40#8 })
      (fun t => t.psl == 0x40#8 && t.iar == 0x0102#15) = true := by
  decide

/-- SB6: BSFA,2 *H'0020' -/
theorem test_bsfa_SB6 :
    endsIn (poked [(0x0020, 0x10#8), (0x0021, 0x00#8), (0x0100, 0xBE#8), (0x0101, 0x80#8), (0x0102, 0x20#8)]
        { base with psl := 0x00#8 })
      (fun t => t.psl == 0x00#8 && t.sp == 1#3 && rasGet t.ras 1#3 == 0x0103#15 &&
        t.iar == 0x1000#15) = true := by
  decide

/-- SB7: BSNR,R2 $+2 -/
theorem test_bsnr_SB7 :
    endsIn (poked [(0x0100, 0x7A#8), (0x0101, 0x00#8)] { base with r2 := 0x01#8 })
      (fun t => t.psl == 0x00#8 && t.sp == 1#3 && rasGet t.ras 1#3 == 0x0102#15 &&
        t.iar == 0x0102#15) = true := by
  decide

/-- SB8: BSNR,R2 $+2 -/
theorem test_bsnr_SB8 :
    endsIn (poked [(0x0100, 0x7A#8), (0x0101, 0x00#8)] { base with r2 := 0x00#8 })
      (fun t => t.psl == 0x00#8 && t.iar == 0x0102#15) = true := by
  decide

/-- SB9: BSNA,R1 H'4000' -/
theorem test_bsna_SB9 :
    endsIn (poked [(0x2100, 0x7D#8), (0x2101, 0x40#8), (0x2102, 0x00#8)]
        { base with iar := 0x2100#15, r1 := 0xFF#8 })
      (fun t => t.psl == 0x00#8 && t.sp == 1#3 && rasGet t.ras 1#3 == 0x2103#15 &&
        t.iar == 0x4000#15) = true := by
  decide

/-- SB10: ZBSR -10 -/
theorem test_zbsr_SB10 :
    endsIn (poked [(0x4100, 0xBB#8), (0x4101, 0x76#8)] { base with iar := 0x4100#15 })
      (fun t => t.psl == 0x00#8 && t.sp == 1#3 && rasGet t.ras 1#3 == 0x4102#15 &&
        t.iar == 0x1FF6#15) = true := by
  decide

/-- SB12: BSXA H'0400',R3 -/
theorem test_bsxa_SB12 :
    endsIn (poked [(0x0100, 0xBF#8), (0x0101, 0x04#8), (0x0102, 0x00#8)] { base with r3 := 0xFF#8 })
      (fun t => t.psl == 0x00#8 && t.sp == 1#3 && rasGet t.ras 1#3 == 0x0103#15 &&
        t.iar == 0x04FF#15) = true := by
  decide

/-- SB15: RETC,0 -/
theorem test_retc_SB15 :
    endsIn (poked [(0x0112, 0x14#8)]
        { base with
          iar := 0x0112#15
          sp := 1#3
          psl := 0x40#8
          ras := rasSet State.reset.ras 1#3 0x0102#15 })
      (fun t => t.psl == 0x40#8 && t.iar == 0x0113#15) = true := by
  decide

/-- SB17: RETC,3 -/
theorem test_retc_SB17 :
    endsIn (poked [(0x0112, 0x17#8)]
        { base with iar := 0x0112#15, sp := 0#3, ras := rasSet State.reset.ras 0#3 0x0456#15 })
      (fun t => t.psl == 0x00#8 && t.sp == 7#3 && t.iar == 0x0456#15) = true := by
  decide

/-- SB18: RETE,3 -/
theorem test_rete_SB18 :
    endsIn (poked [(0x0112, 0x37#8)]
        { base with iar := 0x0112#15, sp := 2#3, ii := true, ras := rasSet State.reset.ras 2#3 0x0234#15 })
      (fun t => t.psl == 0x00#8 && t.ii == false && t.sp == 1#3 && t.iar == 0x0234#15) = true := by
  decide

/-- SB19: RETE,1 -/
theorem test_rete_SB19 :
    endsIn (poked [(0x0112, 0x35#8)]
        { base with
          iar := 0x0112#15
          sp := 2#3
          ii := true
          psl := 0x00#8
          ras := rasSet State.reset.ras 2#3 0x0234#15 })
      (fun t => t.psl == 0x00#8 && t.iar == 0x0113#15) = true := by
  decide


/-! ### Input and output -/

/-- IO1: REDD,R1 -/
theorem test_redd_IO1 :
    endsIn (poked [(0x0100, 0x71#8)] { base with env := { noEnv with inputs := [0x80#8] } })
      (fun t => t.r1 == 0x80#8 && t.psl == 0x80#8 && t.iar == 0x0101#15) = true := by
  decide

/-- IO2: REDC,R0 -/
theorem test_redc_IO2 :
    endsIn (poked [(0x0100, 0x30#8)] { base with r0 := 0x55#8, env := { noEnv with inputs := [0x00#8] } })
      (fun t => t.r0 == 0x00#8 && t.psl == 0x00#8 && t.iar == 0x0101#15) = true := by
  decide

/-- IO3: REDE,R2 H'7F' -/
theorem test_rede_IO3 :
    endsIn (poked [(0x0100, 0x56#8), (0x0101, 0x7F#8)]
        { base with env := { noEnv with inputs := [0x01#8] } })
      (fun t => t.r2 == 0x01#8 && t.psl == 0x40#8 && t.iar == 0x0102#15) = true := by
  decide

/-- IO4: WRTD,R1 -/
theorem test_wrtd_IO4 :
    endsIn (poked [(0x0100, 0xF1#8)] { base with r1 := 0xA5#8, psl := 0x40#8 })
      (fun t => t.psl == 0x40#8 && t.iar == 0x0101#15 && outputs t == [.ioWrite .data 0xA5#8]) = true := by
  decide

/-- IO5: WRTC,R0 -/
theorem test_wrtc_IO5 :
    endsIn (poked [(0x0100, 0xB0#8)] { base with r0 := 0x01#8 })
      (fun t => t.psl == 0x00#8 && t.iar == 0x0101#15 &&
        outputs t == [.ioWrite .control 0x01#8]) = true := by
  decide

/-- IO6: WRTE,R3 H'FF' -/
theorem test_wrte_IO6 :
    endsIn (poked [(0x0100, 0xD7#8), (0x0101, 0xFF#8)] { base with r3 := 0x3C#8 })
      (fun t => t.psl == 0x00#8 && t.iar == 0x0102#15 &&
        outputs t == [.ioWrite (.extended 0xFF#8) 0x3C#8]) = true := by
  decide


/-! ### Miscellaneous -/

/-- MS1: NOP -/
theorem test_nop_MS1 :
    endsIn (poked [(0x0100, 0xC0#8)] { base with r0 := 0x80#8, psl := 0x40#8 })
      (fun t => t.psl == 0x40#8 && t.iar == 0x0101#15) = true := by
  decide

/-- MS4: TMI,R2 H'C3' -/
theorem test_tmi_MS4 :
    endsIn (poked [(0x0100, 0xF6#8), (0x0101, 0xC3#8)] { base with r2 := 0xC2#8 })
      (fun t => t.psl == 0x80#8 && t.iar == 0x0102#15) = true := by
  decide

/-- MS6: HALT -/
theorem test_halt_MS6 :
    endsIn (poked [(0x0100, 0x40#8)] base)
      (fun t => t.psl == 0x00#8 && t.iar == 0x0101#15 && t.run == .haltWait) = true := by
  decide


/-! ### Interrupt acceptance -/

/-- IN2: accept, vector byte H'05' -/
theorem test_interrupt_IN2 :
    endsIn { base with
          iar := 0x2345#15
          sp := 0#3
          psl := 0xC7#8
          r0 := 0x12#8
          env := { noEnv with vectors := [0x05#8], boundaries := [requested] } }
      (fun t => t.psl == 0xC7#8 && t.ii == true && t.sp == 1#3 && rasGet t.ras 1#3 == 0x2345#15 &&
        t.iar == 0x0005#15) = true := by
  decide

/-- IN8: accept, vector byte H'FF' -/
theorem test_interrupt_IN8 :
    endsIn (poked [(0x1FFF, 0x12#8), (0x0000, 0x34#8), (0x2000, 0x99#8)]
        { base with env := { noEnv with vectors := [0xFF#8], boundaries := [requested] } })
      (fun t => t.psl == 0x00#8 && t.ii == true && t.sp == 1#3 && rasGet t.ras 1#3 == 0x0100#15 &&
        t.iar == 0x1234#15) = true := by
  decide

/-- IN9: accept, vector byte H'10' -/
theorem test_interrupt_IN9 :
    endsIn { base with
          iar := 0x0007#15
          run := .haltWait
          env := { noEnv with vectors := [0x10#8], boundaries := [requested] } }
      (fun t => t.psl == 0x00#8 && t.ii == true && t.sp == 1#3 && rasGet t.ras 1#3 == 0x0007#15 &&
        t.iar == 0x0010#15 && t.run == .running) = true := by
  decide

/-! ### By hand from the rules -/

/-- BCFA,2 H'0300' with CC = 00 branches (45_branch.md R229). -/
theorem test_bcfa_taken :
    endsIn (poked [(0x0100, 0x9E#8), (0x0101, 0x03#8), (0x0102, 0x00#8)] base)
      (fun t => t.iar == 0x0300#15) = true := by
  decide

/-- TMI,R0 H'01' with R0 = 05 (MS2). -/
theorem test_tmi_MS2 :
    endsIn (poked [(0x0100, 0xF4#8), (0x0101, 0x01#8)] { base with r0 := 0x05#8, psl := 0x40#8 })
      (fun t => t.psl == 0x00#8 && t.r0 == 0x05#8) = true := by
  decide

/-- H'00' faults (LS3, 30_encoding.md R141). -/
theorem test_indeterminate : step (poked [(0x0100, 0x00#8)] base) = .fault .indeterminate := by
  rfl

/-- The ten codes fault, each with its own byte (MS7 to MS16, 30_encoding.md R142). -/
theorem test_unassigned :
    ([0x10#8, 0x11#8, 0x90#8, 0x91#8, 0xB6#8, 0xB7#8, 0xC4#8, 0xC5#8, 0xC6#8, 0xC7#8].all fun b =>
      match step (poked [(0x0100, b)] base) with
      | .fault (.unassigned c) => b == c
      | _ => false) = true := by
  decide

/-- RESET at a boundary: IAR 0, II clear, RUN (RS2, 70_reset_and_hazards.md R320). -/
theorem test_reset_leaves_halt :
    let t := applyReset false { base with run := .haltWait, ii := true }
    t.iar = 0 ∧ t.ii = false ∧ t.run = .running := by
  simp only [applyReset, resetCore, writeFlag, Bool.false_eq_true, if_false]
  split <;> exact ⟨rfl, rfl, rfl⟩

/-- An instruction across the end of a page comes from the same page (10_state.md R50). -/
theorem test_fetch_wraps_in_page :
    endsIn (poked [(0x3FFF, 0x05#8), (0x2000, 0x7F#8), (0x4000, 0x01#8)] { base with iar := 0x3FFF#15 })
      (fun t => t.r1 == 0x7F#8 && t.iar == 0x2001#15) = true := by
  decide

/-- ROTATE_OVF_STICKY: OVF stays 1 (CR13, 43_compare_rotate.md R206). -/
theorem test_rotate_sticky :
    endsIn (poked [(0x0100, 0xD0#8)]
        { base with
          r0 := 0x10#8
          psl := 0x0C#8
          params := { State.reset.params with rotateOvfSticky := true } })
      (fun t => t.r0 == 0x20#8 && t.psl == 0x6C#8) = true := by
  decide

/-- INDEX_CARRY_INTO_PAGE: the carry reaches the page bits (BR28, 30_encoding.md R130). -/
theorem test_index_carry_into_page :
    endsIn (poked [(0x0100, 0x9F#8), (0x0101, 0x3F#8), (0x0102, 0xFF#8)]
        { base with
          r3 := 0x02#8
          params := { State.reset.params with indexCarryIntoPage := true } })
      (fun t => t.iar == 0x4001#15) = true := by
  decide

/-- A write to ROM is driven on the bus and stores nothing (20_memory.md R89). -/
theorem test_rom_keeps_its_byte :
    endsIn (poked [(0x0100, 0xCF#8), (0x0101, 0x03#8), (0x0300, 0x11#8)]
        { base with
          r3 := 0x5C#8
          params := { State.reset.params with memMap := [⟨0x300, 0x3FF, .rom⟩] } })
      (fun t => t.mem.read 0x0300#15 == 0x11#8 && t.history.head? == some (.memWrite 0x0300#15 0x5C#8)) =
      true := by
  decide

/-- A memory-mapped device answers a load (20_memory.md R89). -/
theorem test_device_answers :
    endsIn (poked [(0x0100, 0x0D#8), (0x0101, 0x03#8)]
        { base with
          params := { State.reset.params with memMap := [⟨0x300, 0x3FF, .device⟩] }
          env := { noEnv with inputs := [0x99#8] } })
      (fun t => t.r1 == 0x99#8 && t.env.inputs == []) = true := by
  decide

/-- The look-ahead read comes before the vector read, a device at the return address included (20_memory.md R82). -/
theorem test_interrupt_reads_ahead :
    endsIn
      { base with
        params := { State.reset.params with memMap := [⟨0x100, 0x100, .device⟩] }
        env := { noEnv with boundaries := [requested], inputs := [0x77#8], vectors := [0x05#8] } }
      (fun t => t.history == [.vectorRead 0x05#8, .memRead 0x0100#15 0x77#8] && t.env.inputs == [] &&
        t.iar == 0x0005#15 && rasGet t.ras 1#3 == 0x0100#15) = true := by
  decide

/-- The byte latched by a RESET during PAUSE is executed, not the one now at address 0 (70_reset_and_hazards.md
R323): LODI,R1 H'7F'. -/
theorem test_latched_byte_runs :
    endsIn (poked [(0x0000, 0x06#8), (0x0001, 0x7F#8)]
        { base with iar := 0, run := .pauseWait, prefetch := some 0x05#8 })
      (fun t => t.r1 == 0x7F#8 && t.r2 == 0x00#8 && t.iar == 2#15 && t.prefetch == none &&
        t.history == [.memRead 1#15 0x7F#8]) = true := by
  decide

/-- The word placed for the next step is the one that runs (log entry 39): LODI,R1 H'AA'. -/
theorem test_with_fetch_word :
    endsIn (State.reset.withFetchWord 16 0xAA05) (fun t => t.r1 == 0xAA#8 && t.iar == 2#15) = true := by
  decide

/-! ## Witnesses: states and operands that meet the hypotheses of the statements -/

/-- A state whose next boundary has the pins given. -/
def pinned (p : Pins) (s : State) : State := { s with env := { s.env with boundaries := [p] } }

/-- A state with NOP at IAR. -/
def atNop : State := poked [(0x0100, 0xC0#8)] base

theorem witness_ResetFromAnyState_pause_high :
    (samplePins (pinned ⟨false, false, true⟩ base)).1.reset = true ∧
      (samplePins (pinned ⟨false, false, true⟩ base)).1.pause = false := by
  decide

theorem witness_ResetFromAnyState_pause_low :
    (samplePins (pinned ⟨false, true, true⟩ base)).1.reset = true ∧
      (samplePins (pinned ⟨false, true, true⟩ base)).1.pause = true ∧
      kindAt base.params.memMap 0 = .ram := by
  decide

theorem witness_InterruptAcceptance_running :
    (samplePins (pinned requested base)).1 = { intreq := true, pause := false, reset := false } ∧
      base.ii = false ∧ base.run ≠ .pauseWait := by
  decide

theorem witness_InterruptAcceptance_halted :
    (samplePins (pinned requested { base with run := .haltWait })).1 =
        { intreq := true, pause := false, reset := false } ∧
      { base with run := .haltWait }.ii = false ∧ { base with run := .haltWait }.run ≠ .pauseWait := by
  decide

/-- The direct and the indirect clause, at the ends of the displacement. -/
theorem witness_InterruptAcceptance_vectors :
    (vectorRead (setInhibit true { base with env := { noEnv with vectors := [0x40#8] } })).1 = 0x40#8 ∧
      (vectorRead (setInhibit true { base with env := { noEnv with vectors := [0xFF#8] } })).1 = 0xFF#8 := by
  decide

theorem witness_WaitStatesHold :
    (samplePins { base with run := .haltWait, ii := true }).1.reset = false ∧
      ({ base with run := .haltWait, ii := true } : State).run = .haltWait ∧
      (samplePins { base with run := .haltWait }).1.intreq = false ∧
      (samplePins (pinned ⟨true, true, false⟩ { base with run := .pauseWait })).1.reset = false ∧
      (samplePins (pinned ⟨true, true, false⟩ { base with run := .pauseWait })).1.pause = true ∧
      (pinned ⟨true, true, false⟩ { base with run := .pauseWait }).run = .pauseWait := by
  decide

theorem witness_PauseStopsAndResumes :
    (samplePins (pinned ⟨true, true, false⟩ base)).1.reset = false ∧ base.run = .running ∧
      (samplePins (pinned ⟨true, true, false⟩ base)).1.pause = true ∧
      (samplePins (pinned requested { base with run := .pauseWait, intWaiting := true })).1.reset = false ∧
      (samplePins (pinned requested { base with run := .pauseWait, intWaiting := true })).1.pause = false ∧
      ({ base with run := .pauseWait, intWaiting := true } : State).intWaiting = true ∧
      ({ base with run := .pauseWait } : State).intWaiting = false := by
  decide

/-- Three bytes across the end of page 1. -/
theorem witness_StepRunsDecodedInstruction :
    let s := poked [(0x3FFE, 0x0E#8), (0x3FFF, 0x80#8), (0x2000, 0x51#8)] { base with iar := 0x3FFE#15 }
    decode [0x0E#8, 0x80#8, 0x51#8] = .ok (.loda .r2 true .plain 0x0051#13, []) ∧
      (Instr.loda .r2 true .plain 0x0051#13).wellFormed = true ∧ (samplePins s).1.reset = false ∧
      (samplePins s).1.pause = false ∧
      (s.run = .running ∧ ((samplePins s).1.intreq = false ∨ s.ii = true) ∨
        s.run = .pauseWait ∧ s.intWaiting = false) ∧
      s.prefetch = none ∧ CodeAt s s.iar [0x0E#8, 0x80#8, 0x51#8] :=
  ⟨rfl, rfl, rfl, rfl, Or.inl ⟨rfl, Or.inl rfl⟩, rfl, Or.inl rfl, rfl, Or.inl rfl, rfl, Or.inl rfl, rfl,
    trivial⟩

/-- The same with a request that II keeps out. -/
theorem witness_StepRunsDecodedInstruction_inhibited :
    let s := pinned requested { atNop with ii := true }
    decode [0xC0#8] = .ok (.nop, []) ∧ s.run = .running ∧ (samplePins s).1.reset = false ∧
      (samplePins s).1.pause = false ∧ s.ii = true ∧ s.prefetch = none ∧ CodeAt s s.iar [0xC0#8] :=
  ⟨rfl, rfl, rfl, rfl, rfl, rfl, Or.inl rfl, rfl, trivial⟩

/-- A latched byte at the end of a PAUSE wait, with another byte at address 0 by then. -/
theorem witness_StepRunsDecodedInstruction_latched :
    let s := poked [(0x0001, 0x7F#8)] { base with iar := 0, run := .pauseWait, prefetch := some 0x05#8 }
    decode [0x05#8, 0x7F#8] = .ok (.lodi .r1 0x7F#8, []) ∧ (Instr.lodi .r1 0x7F#8).wellFormed = true ∧
      (samplePins s).1.reset = false ∧ (samplePins s).1.pause = false ∧
      (s.run = .pauseWait ∧ s.intWaiting = false) ∧ s.prefetch = some 0x05#8 ∧
      CodeAt s (inc13 s.iar) [0x7F#8] :=
  ⟨rfl, rfl, rfl, rfl, ⟨rfl, rfl⟩, rfl, Or.inl rfl, rfl, trivial⟩

theorem witness_DecodeOfEncode : (Instr.bsfa 2#2 true 0x7FFF#15).wellFormed = true := by
  decide

theorem witness_EncodeOfDecode : decode [0xFF#8, 0xFF#8, 0xFF#8] = .ok (.bdra .r3 true 0x7FFF#15, []) := by
  rfl

theorem witness_ConditionCodeOfByte :
    (1 ≤ (1#8).toNat ∧ (1#8).toNat ≤ 127) ∧ (1 ≤ (127#8).toNat ∧ (127#8).toNat ≤ 127) ∧
      (0#8).toNat = 0 ∧ 128 ≤ (128#8).toNat ∧ 128 ≤ (255#8).toNat := by
  decide

theorem witness_ConditionCodeOfComparison :
    (0x00#8).toNat < (0x01#8).toNat ∧ (0x7F#8).toNat < (0x80#8).toNat ∧ (0x80#8).toInt < (0x7F#8).toInt ∧
      (0xFF#8).toInt < (0x00#8).toInt ∧ (0x80#8).toNat = (0x80#8).toNat ∧
      (0x80#8).toInt = (0x80#8).toInt := by
  decide

theorem witness_BcdProceduresAreDecimal : Psl.wc 0xF7#8 = false ∧ 0 < 100 ∧ 99 < 100 := by
  decide

/-- A pointer in RAM at the end of a page, its low byte in ROM at the start of the page. -/
theorem witness_IndirectAddress :
    kindAt [⟨0, 0, .rom⟩] 0x1FFF#15 = .ram ∧ kindAt [⟨0, 0, .rom⟩] (inc13 0x1FFF#15) = .rom := by
  decide

theorem witness_IndexedAddress :
    IndexControl.autoInc ≠ .plain ∧ IndexControl.autoDec ≠ .plain ∧ IndexControl.indexed ≠ .plain := by
  decide

/-- A pointer whose high byte a device answers, with no byte behind its low one. -/
theorem witness_IndirectAddress_elsewhere :
    kindAt [⟨0x1FFF, 0x1FFF, .device⟩, ⟨0, 0, .absent⟩] 0x1FFF#15 = .device ∧
      kindAt [⟨0x1FFF, 0x1FFF, .device⟩, ⟨0, 0, .absent⟩] (inc13 0x1FFF#15) = .absent := by
  decide

/-- Each kind at the ends of its region. -/
theorem witness_MemoryReadByKind :
    let map : List Region := [⟨0x300, 0x3FF, .device⟩, ⟨0x400, 0x7FFE, .absent⟩, ⟨0x7FFF, 0x7FFF, .rom⟩]
    kindAt map 0x02FF#15 = .ram ∧ kindAt map 0x0300#15 = .device ∧ kindAt map 0x03FF#15 = .device ∧
      kindAt map 0x0400#15 = .absent ∧ kindAt map 0x7FFE#15 = .absent ∧ kindAt map 0x7FFF#15 = .rom := by
  decide

theorem witness_MemoryReadByKind_device_answers :
    ({ base with env := { noEnv with inputs := [7#8] } } : State).env.inputs = 7#8 :: [] ∧
      base.env.inputs = [] := by
  decide

theorem witness_MemoryReadAfterWrite : atNop.mem.wf = true ∧ kindAt atNop.params.memMap 0x7FFF#15 = .ram := by
  decide

/-- With bank 0 in view R1' is named by no field, and NOP runs. -/
theorem witness_RegisterBanksAreSeparate :
    (∀ r, regOf r atNop ≠ .r1') ∧ exec .nop atNop = .next atNop :=
  ⟨fun r => by cases r <;> decide, rfl⟩

theorem witness_Stores : base.mem.wf = true ∧ atNop.mem.wf = true := by
  decide

theorem witness_Rotates : Psl.wc base.psl = false ∧ Psl.wc 0x08#8 = true := by
  decide

theorem witness_StatusStores :
    ({ base with env := { noEnv with senses := [true] } } : State).env.senses = true :: [] := by
  rfl

/-- Taken and not taken, by condition, by false condition, and by register. -/
theorem witness_ConditionalBranches :
    (1#2 = Psl.cc 0x40#8 ∧ ¬(1#2 = 3#2 ∨ 1#2 = Psl.cc 0x80#8)) ∧ (0#2 ≠ Psl.cc 0xC0#8 ∧ ¬0#2 ≠ Psl.cc 0x00#8) ∧
      readReg .r0 { base with r0 := 1#8 } ≠ 0 ∧ ¬readReg .r0 base ≠ 0 := by
  decide

theorem witness_SteppingBranches :
    0x00#8 + 1 ≠ 0#8 ∧ ¬(0xFF#8 + 1 ≠ 0#8) ∧ 0x00#8 - 1 ≠ 0#8 ∧ ¬(0x01#8 - 1 ≠ 0#8) := by
  decide

theorem witness_ConditionalCalls :
    (2#2 = Psl.cc 0x80#8 ∧ ¬(2#2 = 3#2 ∨ 2#2 = Psl.cc 0x40#8)) ∧ (1#2 ≠ Psl.cc 0x80#8 ∧ ¬1#2 ≠ Psl.cc 0x40#8) ∧
      readReg .r3 { base with r3 := 0xFF#8 } ≠ 0 ∧ ¬readReg .r3 base ≠ 0 := by
  decide

theorem witness_Returns :
    (3#2 = 3#2 ∨ 3#2 = Psl.cc base.psl) ∧ (0#2 = 3#2 ∨ 0#2 = Psl.cc base.psl) ∧
      ¬(1#2 = 3#2 ∨ 1#2 = Psl.cc base.psl) := by
  decide

/-- Eight pushes and the last pop; one push and its pop; a ninth push. -/
theorem witness_StackIsEightDeep :
    ([1, 2, 3, 4, 5, 6, 7, 8] : List Addr).length ≤ 8 ∧ 7 < ([1, 2, 3, 4, 5, 6, 7, 8] : List Addr).length ∧
      ([1] : List Addr).length ≤ 8 ∧ 0 < ([1] : List Addr).length ∧
      ([2, 3, 4, 5, 6, 7, 8] : List Addr).length = 7 := by
  decide

theorem witness_InputInstructions :
    ({ base with env := { noEnv with inputs := [0x80#8] } } : State).env.inputs = 0x80#8 :: [] := by
  rfl

theorem witness_OnlyStoresWriteMemory : isStore .nop = false ∧ exec .nop base = .next base :=
  ⟨rfl, rfl⟩

/-- II is set by an acceptance and by an instruction. -/
theorem witness_InhibitWriters_set :
    base.ii = false ∧
      (∃ t, step (pinned requested { base with env := { noEnv with vectors := [0x05#8] } }) = .next t ∧
        t.ii = true) ∧
      ∃ t, step (poked [(0x0100, 0x76#8), (0x0101, 0x20#8)] base) = .next t ∧ t.ii = true :=
  ⟨rfl, ⟨_, rfl, rfl⟩, ⟨_, rfl, rfl⟩⟩

/-- II is cleared by a RESET and by an instruction. -/
theorem witness_InhibitWriters_cleared :
    (∃ t, step (pinned ⟨false, false, true⟩ { base with run := .haltWait, ii := true }) = .next t ∧
      t.ii = false) ∧
      ∃ t, step (poked [(0x0100, 0x37#8)] { base with ii := true }) = .next t ∧ t.ii = false :=
  ⟨⟨applyReset false { base with run := .haltWait, ii := true }, rfl, test_reset_leaves_halt.2.1⟩, ⟨_, rfl, rfl⟩⟩

theorem witness_InhibitWriters_masks :
    (0x20#8).getLsbD 5 = true ∧ (0xFF#8).getLsbD 5 = true ∧
      (3#2 = 3#2 ∨ 3#2 = Psl.cc base.psl) ∧ (0#2 = 3#2 ∨ 0#2 = Psl.cc base.psl) := by
  decide

theorem witness_StatusBitWriters :
    exec .nop base = .next base ∧ keepsCC .nop = true ∧ writesArith base.psl .nop = false ∧
      writesPsl .nop = false ∧ writesArith base.psl (.rrl .r1) = false ∧ keepsCC (.bxa false 0) = true := by
  refine ⟨rfl, ?_⟩
  decide

/-- A relative branch, a flag writer, a call and HALT: each clause of the statement meets a next state. -/
theorem witness_ControlWriters :
    isTransfer .nop = false ∧ isRelativeDirect (.bctr 3#2 false 0x40#7) = true ∧
      (∃ t, exec (.bctr 3#2 false 0x40#7) base = .next t) ∧
      (∃ t, exec (.ppsu 0x40#8) base = .next t ∧ t.f ≠ base.f) ∧
      (∃ t, exec (.zbsr false 0) base = .next t ∧ rasGet t.ras 1 ≠ rasGet base.ras 1) ∧
      ∃ t, exec .halt base = .next t ∧ t.run ≠ base.run :=
  ⟨rfl, rfl, ⟨_, rfl⟩, ⟨_, rfl, by decide⟩, ⟨_, rfl, by decide⟩, ⟨_, rfl, by decide⟩⟩

theorem witness_HistoryOnlyGrows : ∃ t, step atNop = .next t ∧ t.history ≠ atNop.history :=
  ⟨_, rfl, by decide⟩

theorem witness_StepKeepsInvariant : Inv atNop ∧ ∃ t, step atNop = .next t :=
  ⟨⟨by decide, by decide, by decide⟩, _, rfl⟩

/-- The invariant with a byte latched, and with a request waiting, both in a PAUSE wait that ends. -/
theorem witness_StepKeepsInvariant_paused :
    (Inv { base with iar := 0, run := .pauseWait, prefetch := some 0xC0#8 } ∧
      ∃ t, step { base with iar := 0, run := .pauseWait, prefetch := some 0xC0#8 } = .next t) ∧
    Inv { base with run := .pauseWait, intWaiting := true } ∧
      ∃ t, step { base with run := .pauseWait, intWaiting := true } = .next t :=
  ⟨⟨⟨by decide, by decide, by decide⟩, _, rfl⟩, ⟨by decide, by decide, by decide⟩, _, rfl⟩

end Sys2Proof.Tests
end

section
namespace Sys2Proof.Machine

/-! ## O1, O59: the reset state -/

/-- Settles O1. -/
theorem resetStateStartsAtZero : Obligations.ResetStateStartsAtZero :=
  ⟨rfl, rfl, rfl, rfl⟩

/-- Settles O59: memory by `reset_mem_wf`; no byte is latched and no request waits. -/
theorem resetMeetsInvariant : Obligations.ResetMeetsInvariant :=
  ⟨reset_mem_wf, fun h => absurd h Bool.false_ne_true, fun h => absurd h Bool.false_ne_true⟩

/-! ## The condition code (10_state.md R33, R34) -/

theorem ccOf_zero : ccOf 0 = 0b00#2 := rfl

theorem ccOf_of_pos {v : Byte} (h0 : 0 < v.toNat) (h : v.toNat < 128) : ccOf v = 0b01#2 := by
  have hne : v ≠ 0 := by rintro rfl; exact absurd h0 (by decide)
  have hmsb : v.msb = false := by rw [BitVec.msb_eq_false_iff_two_mul_lt]; omega
  rw [ccOf, if_neg hne, hmsb]; rfl

theorem ccOf_of_neg {v : Byte} (h : 128 ≤ v.toNat) : ccOf v = 0b10#2 := by
  have hne : v ≠ 0 := by rintro rfl; exact absurd h (by decide)
  have hmsb : v.msb = true := by rw [BitVec.msb_eq_true_iff_two_mul_ge]; omega
  rw [ccOf, if_neg hne, hmsb, if_pos rfl]

/-- Settles O12, range by range. -/
theorem conditionCodeOfByte : Obligations.ConditionCodeOfByte := fun _ =>
  ⟨fun ⟨h0, h⟩ => ccOf_of_pos h0 (by omega),
    fun h => by rw [BitVec.eq_of_toNat_eq (y := 0) h, ccOf_zero], ccOf_of_neg⟩

/-- The number a comparison takes a byte for: unsigned under COM = 1, two's complement under COM = 0
(10_state.md R34). -/
def comValue (com : Bool) (v : Byte) : Int := if com then v.toNat else v.toInt

theorem ccCmp_of_gt {com : Bool} {a b : Byte} (h : comValue com b < comValue com a) :
    ccCmp com a b = 0b01#2 := if_pos h

theorem ccCmp_of_eq {com : Bool} {a b : Byte} (h : comValue com a = comValue com b) :
    ccCmp com a b = 0b00#2 := (if_neg h.not_gt).trans (if_pos h)

theorem ccCmp_of_lt {com : Bool} {a b : Byte} (h : comValue com a < comValue com b) :
    ccCmp com a b = 0b10#2 := (if_neg h.not_gt).trans (if_neg h.ne)

/-- Settles O13: the three orders, once for each reading of a byte. -/
theorem conditionCodeOfComparison : Obligations.ConditionCodeOfComparison := fun _ _ =>
  ⟨fun h => ccCmp_of_gt (Int.ofNat_lt.mpr h), fun h => ccCmp_of_eq (congrArg Int.ofNat h),
    fun h => ccCmp_of_lt (Int.ofNat_lt.mpr h), fun h => ccCmp_of_gt h, fun h => ccCmp_of_eq h,
    fun h => ccCmp_of_lt h⟩

/-! ## The return address stack (10_state.md R44 to R48) -/

/-- Settles O48, by the field lemmas of `push` and `popToIar`. -/
theorem stackPushAndPop : Obligations.StackPushAndPop := fun s a => by
  refine ⟨?_, by simp [rasGet_rasSet], fun j hj => ?_, rfl, ?_, rfl⟩
  · rw [push_sp]; bv_omega
  · rw [push_sp] at hj
    rw [push_ras, rasGet_rasSet, if_neg hj]
  · rw [popToIar_sp]; bv_omega

/-- The addresses pushed in the order of the list. -/
def pushAll (as : List Addr) (s : State) : State := as.foldl (fun t a => push a t) s

@[simp] theorem pushAll_nil (s : State) : pushAll [] s = s := rfl

@[simp] theorem pushAll_cons (a : Addr) (as : List Addr) (s : State) :
    pushAll (a :: as) s = pushAll as (push a s) := rfl

theorem pushAll_concat (as : List Addr) (a : Addr) (s : State) :
    pushAll (as ++ [a]) s = push a (pushAll as s) := by
  simp [pushAll]

theorem pushAll_sp (as : List Addr) (s : State) :
    (pushAll as s).sp = s.sp + BitVec.ofNat 3 as.length := by
  induction as generalizing s with
  | nil => simp
  | cons a as ih => rw [pushAll_cons, ih, push_sp, List.length_cons]; bv_omega

/-- While at most eight addresses are pushed, none is overwritten: the (j + 1)-th stands j + 1 entries above
the old SP. -/
theorem rasGet_pushAll (as : List Addr) (s : State) (h : as.length ≤ 8) (j : Nat) (hj : j < as.length) :
    rasGet (pushAll as s).ras (s.sp + BitVec.ofNat 3 (j + 1)) = as[j] := by
  induction as using List.reverseRecOn with
  | nil => exact absurd hj (Nat.not_lt_zero j)
  | append_singleton as a ih =>
    rw [List.length_append, List.length_singleton] at h hj
    rw [pushAll_concat, push_ras, rasGet_rasSet, pushAll_sp]
    by_cases hlast : j = as.length
    · subst hlast
      rw [if_pos (by bv_omega), List.getElem_concat_length rfl]
    · have hlt : j < as.length := by omega
      rw [if_neg (by bv_omega), ih (by omega) hlt, List.getElem_append_left hlt]

/-- `n` pops step SP down by `n` and keep the entries. -/
theorem popToIar_repeat (n : Nat) (s : State) :
    (Nat.repeat popToIar n s).sp = s.sp - BitVec.ofNat 3 n ∧
      (Nat.repeat popToIar n s).ras = s.ras := by
  induction n with
  | zero => exact ⟨by simp [Nat.repeat], rfl⟩
  | succ n ih =>
    obtain ⟨hsp, hras⟩ := ih
    refine ⟨?_, by rw [Nat.repeat, popToIar_ras, hras]⟩
    rw [Nat.repeat, popToIar_sp, hsp]; bv_omega

/-- The last of several pops takes the entry that SP names after the others. -/
theorem popToIar_repeat_iar (n : Nat) (s : State) :
    (Nat.repeat popToIar (n + 1) s).iar = rasGet s.ras (s.sp - BitVec.ofNat 3 n) := by
  obtain ⟨hsp, hras⟩ := popToIar_repeat n s
  rw [Nat.repeat, popToIar_iar, hsp, hras]

/-- Up to eight addresses are popped last in, first out. -/
theorem pop_pushAll (s : State) (as : List Addr) (k : Nat) (h : as.length ≤ 8) (hk : k < as.length) :
    (Nat.repeat popToIar (k + 1) (pushAll as s)).iar = as[as.length - 1 - k] ∧
      (Nat.repeat popToIar (k + 1) (pushAll as s)).sp.toNat = (s.sp.toNat + as.length + 7 - k) % 8 := by
  constructor
  · have hentry : s.sp + BitVec.ofNat 3 as.length - BitVec.ofNat 3 k =
        s.sp + BitVec.ofNat 3 (as.length - 1 - k + 1) := by bv_omega
    rw [popToIar_repeat_iar, pushAll_sp, hentry, rasGet_pushAll as s h]
  · rw [(popToIar_repeat _ _).1, pushAll_sp]; bv_omega

/-- A ninth push goes to the entry of the first. -/
theorem ninth_push (s : State) (first last : Addr) (mid : List Addr) (h : mid.length = 7) :
    rasGet (pushAll (first :: mid) s).ras (s.sp + 1) = first ∧
      rasGet (push last (pushAll (first :: mid) s)).ras (s.sp + 1) = last := by
  have hlen : (first :: mid).length = 8 := by rw [List.length_cons, h]
  constructor
  · exact rasGet_pushAll (first :: mid) s hlen.le 0 (by omega)
  · rw [push_ras, rasGet_rasSet, pushAll_sp, hlen, if_pos (by bv_omega)]

/-- Settles O49, by `pop_pushAll` and `ninth_push`. -/
theorem stackIsEightDeep : Obligations.StackIsEightDeep := by
  refine ⟨fun s as k h hk => ?_, ninth_push⟩
  obtain ⟨hiar, hsp⟩ := pop_pushAll s as k h hk
  exact ⟨by rw [List.getElem?_eq_getElem (by omega)]; exact congrArg some hiar, hsp⟩

end Sys2Proof.Machine
end

section
namespace Sys2Proof.Machine

/-! ## What an update keeps beside registers and memory -/

/-- PSL bits outside `mask`, F and the control state are as before. SP and II are left out: branches and returns
are to meet it too. -/
structure Kept (mask : Byte) (s t : State) : Prop where
  psl : PslKept mask s t
  f : t.f = s.f
  control : ControlKept s t

/-- The same, with IAR as before: what an instruction that is no transfer keeps (10_state.md R51). -/
structure DataKept (mask : Byte) (s t : State) : Prop where
  iar : t.iar = s.iar
  kept : Kept mask s t

theorem ControlKept.trans {s t u : State} (h : ControlKept s t) (k : ControlKept t u) : ControlKept s u := by
  obtain ⟨hras, hrun, hwait, hlatch, hpar⟩ := h
  obtain ⟨kras, krun, kwait, klatch, kpar⟩ := k
  exact ⟨kras.trans hras, krun.trans hrun, kwait.trans hwait, klatch.trans hlatch, kpar.trans hpar⟩

theorem ControlKept.ras {s t : State} (h : ControlKept s t) : t.ras = s.ras := h.1

theorem ControlKept.run {s t : State} (h : ControlKept s t) : t.run = s.run := h.2.1

theorem ControlKept.latches {s t : State} (h : ControlKept s t) :
    t.params = s.params ∧ t.prefetch = s.prefetch ∧ t.intWaiting = s.intWaiting := by
  obtain ⟨-, -, hwait, hlatch, hpar⟩ := h
  exact ⟨hpar, hlatch, hwait⟩

theorem Kept.refl (mask : Byte) (s : State) : Kept mask s s :=
  ⟨rfl, rfl, rfl, rfl, rfl, rfl, rfl⟩

theorem Kept.trans {mask : Byte} {s t u : State} (h : Kept mask s t) (k : Kept mask t u) : Kept mask s u :=
  ⟨Eq.trans k.psl h.psl, k.f.trans h.f, h.control.trans k.control⟩

theorem Frame.kept {ws : List PhysReg} {mask : Byte} {s t : State} (h : Frame ws mask s t) : Kept mask s t := by
  obtain ⟨-, hp, ⟨hf, -, -⟩, hc, -⟩ := h
  exact ⟨hp, hf, hc⟩

theorem BusOnly.kept {s t : State} (h : BusOnly s t) (mask : Byte) : Kept mask s t := (h.frame [] mask).kept

theorem DataKept.refl (mask : Byte) (s : State) : DataKept mask s s := ⟨rfl, Kept.refl mask s⟩

theorem DataKept.trans {mask : Byte} {s t u : State} (h : DataKept mask s t) (k : DataKept mask t u) :
    DataKept mask s u := ⟨k.iar.trans h.iar, h.kept.trans k.kept⟩

theorem BusOnly.dataKept {s t : State} (h : BusOnly s t) (mask : Byte) : DataKept mask s t :=
  ⟨h.iar, h.kept mask⟩

/-! ### The shapes shared by the meanings -/

theorem dataKept_writeReg (r : Reg) (v mask : Byte) (s : State) : DataKept mask s (writeReg r v s) :=
  ⟨writeReg_iar s r v, (frame_writeReg r v mask s).kept⟩

theorem dataKept_setPsl {p mask : Byte} {s : State} (h : p &&& ~~~mask = s.psl &&& ~~~mask) :
    DataKept mask s (setPsl p s) := ⟨rfl, (frame_setPsl p mask [] s h).kept⟩

theorem dataKept_setCC (cc : BitVec 2) (s : State) : DataKept ccMask s (setCC cc s) :=
  dataKept_setPsl (setCC_kept s.psl cc)

theorem dataKept_memWrite (a : Addr) (v mask : Byte) (s : State) : DataKept mask s (memWrite a v s) :=
  ⟨rfl, rfl, rfl, rfl, rfl, rfl, rfl, rfl⟩

theorem dataKept_loadReg (r : Reg) (v : Byte) (s : State) : DataKept ccMask s (loadReg r v s) :=
  (dataKept_writeReg r v ccMask s).trans (dataKept_setCC _ _)

/-- Addition and subtraction: the result and the flags of the adder. -/
theorem dataKept_writeAlu (r : Reg) (x : AluResult) (s : State) :
    DataKept arithMask s (setPsl (pslAfterAlu s.psl x) (writeReg r x.res s)) := by
  obtain ⟨-, -, -, -, -, hiar, hframe, -⟩ := writeAlu_spec r x s
  exact ⟨hiar, hframe.kept⟩

theorem dataKept_addToReg (r : Reg) (b : Byte) (s : State) : DataKept arithMask s (addToReg r b s) :=
  dataKept_writeAlu r _ s

theorem dataKept_subFromReg (r : Reg) (b : Byte) (s : State) : DataKept arithMask s (subFromReg r b s) :=
  dataKept_writeAlu r _ s

/-- The PSL bits a rotate writes: with WC = 0 CC alone (43_compare_rotate.md R206). -/
def rotateMask (psl : Byte) : Byte := if Psl.wc psl then arithMask else ccMask

theorem pslAfterRotate_kept (sticky : Bool) (psl old new : Byte) (out : Bool) :
    pslAfterRotate sticky psl old new out &&& ~~~rotateMask psl = psl &&& ~~~rotateMask psl := by
  cases h : Psl.wc psl
  · simpa [pslAfterRotate, rotateMask, h] using setCC_kept psl _
  · simpa [pslAfterRotate, rotateMask, h] using setArith_kept psl _ _ _ _

theorem dataKept_rotateTo (r : Reg) (new : Byte) (out : Bool) (s : State) :
    DataKept (rotateMask s.psl) s (rotateTo r new out s) :=
  (dataKept_writeReg r new _ s).trans (dataKept_setPsl (by rw [writeReg_psl, pslAfterRotate_kept]))

theorem dataKept_inputTo (r : Reg) (p : IoPort) (s : State) : DataKept ccMask s (inputTo r p s) :=
  ((busOnly_ioRead p s).dataKept ccMask).trans (dataKept_loadReg r _ _)

theorem dataKept_absEA (x : Reg) (i : Bool) (ic : IndexControl) (a : Off) (mask : Byte) (s : State) :
    DataKept mask s (absEA x i ic a s).2 :=
  ⟨by rw [(absEA_busOnly x i ic a s).iar, stepIndex_iar], (frame_absEA x i ic a mask s).kept⟩

/-- A relative operand is reached by bus operations alone, so the operation on it decides what is kept. -/
theorem dataKept_withRel {mask : Byte} {f : Byte → State → State} (hf : ∀ b t, DataKept mask t (f b t))
    (i : Bool) (d : BitVec 7) (s : State) : DataKept mask s (withRel i d f s) :=
  (((busOnly_relEA i d s).trans (busOnly_memRead _ _)).dataKept mask).trans (hf _ _)

theorem dataKept_withAbs {mask : Byte} {f : Reg → Byte → State → State}
    (hf : ∀ r b t, DataKept mask t (f r b t)) (x : Reg) (i : Bool) (ic : IndexControl) (a : Off) (s : State) :
    DataKept mask s (withAbs x i ic a f s) :=
  ((dataKept_absEA x i ic a mask s).trans ((busOnly_memRead _ _).dataKept mask)).trans (hf _ _ _)

theorem BusOnly.kept_setIar {s t : State} (h : BusOnly s t) (a : Addr) : Kept 0#8 s (setIar a t) :=
  (h.kept 0#8).trans ⟨rfl, rfl, rfl, rfl, rfl, rfl, rfl⟩

theorem kept_branchRel (taken i : Bool) (d : BitVec 7) (s : State) : Kept 0#8 s (branchRel taken i d s) := by
  cases taken
  · exact Kept.refl _ _
  · exact (busOnly_relEA i d s).kept_setIar _

theorem kept_branchAbs (taken i : Bool) (a : Addr) (s : State) : Kept 0#8 s (branchAbs taken i a s) := by
  cases taken
  · exact Kept.refl _ _
  · exact (busOnly_branchEA i a s).kept_setIar _

theorem kept_takeReturn (enable : Bool) (s : State) : Kept 0#8 s (takeReturn enable s) := by
  cases enable <;> exact ⟨rfl, rfl, rfl, rfl, rfl, rfl, rfl⟩

theorem kept_return (taken enable : Bool) (s : State) :
    Kept 0#8 s (if taken then takeReturn enable s else s) := by
  cases taken
  · exact Kept.refl _ _
  · exact kept_takeReturn enable s

/-! ## What a meaning can do to PSL and the control state -/

/-- The PSL bits an instruction may write (10_state.md R23, R28, R36). -/
def pslWritten (psl : Byte) (i : Instr) : Byte :=
  if writesPsl i then 0xFF#8 else if writesArith psl i then arithMask else if keepsCC i then 0#8 else ccMask

/-- LPSU, PPSU and CPSU (10_state.md R30). -/
def writesPsu : Instr → Bool
  | .lpsu | .ppsu _ | .cpsu _ => true
  | _ => false

/-- The ways in which a meaning can touch PSL, IAR, F, the stack and the run state. A call that is not taken, and
a branch taken or not, is a `jump`. -/
inductive Effect (i : Instr) (s : State) : State → Prop
  | data {t : State} (hi : isTransfer i = false) (h : DataKept (pslWritten s.psl i) s t) : Effect i s t
  | psu (hi : writesPsu i = true) (b : Byte) : Effect i s (writePsu b s)
  | halt (hi : i = .halt) : Effect i s (setRun .haltWait s)
  | jump {t : State} (hi : isTransfer i = true) (h : Kept 0#8 s t) : Effect i s t
  | call (hi : isCall i = true) {ea : Addr × State} (h : BusOnly s ea.2) : Effect i s (callTo ea)

theorem effect_callRel {instr : Instr} (hc : isCall instr = true) (ht : isTransfer instr = true)
    (taken i : Bool) (d : BitVec 7) (s : State) : Effect instr s (callRel taken i d s) := by
  cases taken
  · exact .jump ht (Kept.refl _ _)
  · exact .call hc (busOnly_relEA i d s)

theorem effect_callAbs {instr : Instr} (hc : isCall instr = true) (ht : isTransfer instr = true)
    (taken i : Bool) (a : Addr) (s : State) : Effect instr s (callAbs taken i a s) := by
  cases taken
  · exact .jump ht (Kept.refl _ _)
  · exact .call hc (busOnly_branchEA i a s)

/-- A rotate writes the PSL bits of `rotateMask`, which are those `pslWritten` gives it. -/
theorem pslWritten_rotate {i : Instr} (hp : writesPsl i = false) (hk : keepsCC i = false) {psl : Byte}
    (ha : writesArith psl i = Psl.wc psl) : pslWritten psl i = rotateMask psl := by
  simp [pslWritten, rotateMask, hp, hk, ha]

/-- Every instruction that has a next state reaches it by one of the effects. -/
theorem exec_effect {i : Instr} {s t : State} (h : exec i s = .next t) : Effect i s t := by
  cases i with
  | lodz | lodi | strz | andz | andi | iorz | iori | eorz | eori | spsl =>
    cases h; exact .data rfl (dataKept_loadReg _ _ _)
  | lodr => cases h; exact .data rfl (dataKept_withRel (dataKept_loadReg _) _ _ _)
  | andr | iorr | eorr => cases h; exact .data rfl (dataKept_withRel (fun _ _ => dataKept_loadReg _ _ _) _ _ _)
  | loda => cases h; exact .data rfl (dataKept_withAbs dataKept_loadReg _ _ _ _ _)
  | anda | iora | eora =>
    cases h; exact .data rfl (dataKept_withAbs (fun _ _ _ => dataKept_loadReg _ _ _) _ _ _ _ _)
  | strr => cases h; exact .data rfl (((busOnly_relEA _ _ _).dataKept _).trans (dataKept_memWrite _ _ _ _))
  | stra => cases h; exact .data rfl ((dataKept_absEA _ _ _ _ _ _).trans (dataKept_memWrite _ _ _ _))
  | addz | addi => cases h; exact .data rfl (dataKept_addToReg _ _ _)
  | addr => cases h; exact .data rfl (dataKept_withRel (dataKept_addToReg _) _ _ _)
  | adda => cases h; exact .data rfl (dataKept_withAbs dataKept_addToReg _ _ _ _ _)
  | subz | subi => cases h; exact .data rfl (dataKept_subFromReg _ _ _)
  | subr => cases h; exact .data rfl (dataKept_withRel (dataKept_subFromReg _) _ _ _)
  | suba => cases h; exact .data rfl (dataKept_withAbs dataKept_subFromReg _ _ _ _ _)
  | dar =>
    cases h
    exact .data rfl (((dataKept_writeReg _ _ _ _).trans ((busOnly_nextDraw _).dataKept _)).trans
      (dataKept_setCC _ _))
  | comz | comi | tmi | tpsl => cases h; exact .data rfl (dataKept_setCC _ _)
  | comr => cases h; exact .data rfl (dataKept_withRel (fun _ _ => dataKept_setCC _ _) _ _ _)
  | coma => cases h; exact .data rfl (dataKept_withAbs (fun _ _ _ => dataKept_setCC _ _) _ _ _ _ _)
  | rrl | rrr =>
    cases h
    exact .data rfl (by rw [pslWritten_rotate rfl rfl rfl]; exact dataKept_rotateTo _ _ _ _)
  | lpsu | ppsu | cpsu => cases h; exact .psu rfl _
  | lpsl | ppsl | cpsl => cases h; exact .data rfl (dataKept_setPsl (mask := 0xFF#8) (by simp))
  | spsu =>
    cases h; exact .data rfl (((busOnly_senseSample _).dataKept _).trans (dataKept_loadReg _ _ _))
  | tpsu => cases h; exact .data rfl (((busOnly_senseSample _).dataKept _).trans (dataKept_setCC _ _))
  | bctr | bcfr | brnr => cases h; exact .jump rfl (kept_branchRel _ _ _ _)
  | bcta | bcfa | brna => cases h; exact .jump rfl (kept_branchAbs _ _ _ _)
  | birr | bdrr => cases h; exact .jump rfl ((dataKept_writeReg _ _ _ _).kept.trans (kept_branchRel _ _ _ _))
  | bira | bdra => cases h; exact .jump rfl ((dataKept_writeReg _ _ _ _).kept.trans (kept_branchAbs _ _ _ _))
  | zbrr => cases h; exact .jump rfl ((busOnly_zeroRelEA _ _ _).kept_setIar _)
  | bxa => cases h; exact .jump rfl ((busOnly_indexedBranchEA _ _ _).kept_setIar _)
  | bstr | bsfr | bsnr => cases h; exact effect_callRel rfl rfl _ _ _ _
  | bsta | bsfa | bsna => cases h; exact effect_callAbs rfl rfl _ _ _ _
  | zbsr => cases h; exact .call rfl (busOnly_zeroRelEA _ _ _)
  | bsxa => cases h; exact .call rfl (busOnly_indexedBranchEA _ _ _)
  | retc | rete => cases h; exact .jump rfl (kept_return _ _ _)
  | redd | redc | rede => cases h; exact .data rfl (dataKept_inputTo _ _ _)
  | wrtd | wrtc | wrte => cases h; exact .data rfl ((busOnly_logEvent _ _).dataKept _)
  | nop => cases h; exact .data rfl (DataKept.refl _ _)
  | halt => cases h; exact .halt rfl
  | indeterminate00 | unassigned10 | unassigned11 | unassigned90 | unassigned91 | unassignedB6 | unassignedB7
  | unassignedC4 | unassignedC5 | unassignedC6 | unassignedC7 => cases h


/-! ## O56: the writers of the PSL bits -/

theorem pslKept_zero {s t : State} : PslKept 0#8 s t ↔ t.psl = s.psl := by
  show t.psl &&& BitVec.allOnes 8 = s.psl &&& BitVec.allOnes 8 ↔ _
  rw [BitVec.and_allOnes, BitVec.and_allOnes]

theorem pslKept_of_eq {s t : State} (mask : Byte) (h : t.psl = s.psl) : PslKept mask s t := by
  rw [PslKept, h]

/-- A bit outside the mask is as before. -/
theorem PslKept.getLsbD {mask : Byte} {s t : State} (h : PslKept mask s t) {n : Nat} (hn : n < 8)
    (hm : mask.getLsbD n = false) : t.psl.getLsbD n = s.psl.getLsbD n := by
  have hbit := congrArg (BitVec.getLsbD · n) h
  simpa only [BitVec.getLsbD_and, BitVec.getLsbD_not, hn, hm, decide_true, Bool.not_false, Bool.and_true]
    using hbit

theorem writePsu_psl (b : Byte) (s : State) : (writePsu b s).psl = s.psl := by rw [writePsu_spec]

theorem writePsu_iar (b : Byte) (s : State) : (writePsu b s).iar = s.iar := by rw [writePsu_spec]

theorem writePsu_controlKept (b : Byte) (s : State) : ControlKept s (writePsu b s) := by
  rw [writePsu_spec]; exact ⟨rfl, rfl, rfl, rfl, rfl⟩

/-- No instruction writes a PSL bit outside `pslWritten`. -/
theorem Effect.pslKept {i : Instr} {s t : State} (h : Effect i s t) : PslKept (pslWritten s.psl i) s t := by
  cases h with
  | data _ h => exact h.kept.psl
  | psu _ b => exact pslKept_of_eq _ (writePsu_psl b s)
  | halt => exact pslKept_of_eq _ rfl
  | jump _ h => exact pslKept_of_eq _ (pslKept_zero.mp h.psl)
  | call _ h => exact pslKept_of_eq _ h.psl

theorem writesArith_of_writesPsl {i : Instr} (psl : Byte) (h : writesPsl i = true) :
    writesArith psl i = true := by
  cases i with
  | lpsl | ppsl | cpsl => rfl
  | _ => cases h

theorem keepsCC_of_writesArith {i : Instr} {psl : Byte} (h : writesArith psl i = true) :
    keepsCC i = false := by
  cases i with
  | addz | addi | addr | adda | subz | subi | subr | suba | rrl | rrr | lpsl | ppsl | cpsl => rfl
  | _ => cases h

theorem pslWritten_of_not_writesArith {i : Instr} {psl : Byte} (h : writesArith psl i = false) :
    pslWritten psl i = if keepsCC i then 0#8 else ccMask := by
  have hp : writesPsl i = false := by
    by_contra hp
    rw [writesArith_of_writesPsl psl (by simpa using hp)] at h
    exact Bool.noConfusion h
  simp [pslWritten, hp, h]

theorem pslWritten_of_keepsCC {i : Instr} (psl : Byte) (h : keepsCC i = true) : pslWritten psl i = 0#8 := by
  have ha : writesArith psl i = false := by
    by_contra ha
    rw [keepsCC_of_writesArith (psl := psl) (by simpa using ha)] at h
    exact Bool.noConfusion h
  rw [pslWritten_of_not_writesArith ha, if_pos h]

/-- Where `writesArith` is false, C, OVF and IDC are not written. -/
theorem pslWritten_arith_bits {i : Instr} {psl : Byte} (h : writesArith psl i = false) :
    (pslWritten psl i).getLsbD 0 = false ∧ (pslWritten psl i).getLsbD 5 = false ∧
      (pslWritten psl i).getLsbD 2 = false := by
  rw [pslWritten_of_not_writesArith h]
  cases keepsCC i <;> decide

/-- Where `writesPsl` is false, RS, WC and COM are not written. -/
theorem pslWritten_mode_bits {i : Instr} (psl : Byte) (h : writesPsl i = false) :
    (pslWritten psl i).getLsbD 4 = false ∧ (pslWritten psl i).getLsbD 3 = false ∧
      (pslWritten psl i).getLsbD 1 = false := by
  rw [pslWritten, h]
  cases writesArith psl i <;> cases keepsCC i <;> decide

theorem acceptInterrupt_psl (s : State) : (acceptInterrupt s).psl = s.psl := by
  rw [acceptInterrupt_spec s _ _ rfl rfl]

/-- Settles O56: an instruction keeps what stands outside its `pslWritten`. -/
theorem statusBitWriters : Obligations.StatusBitWriters := by
  refine ⟨fun i s t h => ?_, acceptInterrupt_psl⟩
  have hk : PslKept (pslWritten s.psl i) s t := (exec_effect h).pslKept
  refine ⟨fun hcc => ?_, fun ha => ?_, fun hp => ?_⟩
  · rw [pslWritten_of_keepsCC s.psl hcc, pslKept_zero] at hk
    rw [hk]
  · obtain ⟨hc, hidc, hovf⟩ := pslWritten_arith_bits ha
    exact ⟨hk.getLsbD (by omega) hc, hk.getLsbD (by omega) hidc, hk.getLsbD (by omega) hovf⟩
  · obtain ⟨hrs, hwc, hcom⟩ := pslWritten_mode_bits s.psl hp
    exact ⟨hk.getLsbD (by omega) hrs, hk.getLsbD (by omega) hwc, hk.getLsbD (by omega) hcom⟩

/-! ## O57: the writers of the control state -/

theorem isTransfer_of_isCall {i : Instr} (h : isCall i = true) : isTransfer i = true := by
  cases i with
  | bstr | bsta | bsfr | bsfa | bsnr | bsna | zbsr | bsxa => rfl
  | _ => cases h

theorem writesPsu_iff (i : Instr) :
    writesPsu i = true ↔ i = .lpsu ∨ (∃ v, i = .ppsu v) ∨ ∃ v, i = .cpsu v := by
  cases i <;> simp [writesPsu]

theorem Effect.iar {i : Instr} {s t : State} (h : Effect i s t) (hi : isTransfer i = false) :
    t.iar = s.iar := by
  cases h with
  | data _ h => exact h.iar
  | psu _ b => exact writePsu_iar b s
  | halt => rfl
  | jump ht _ => simp [ht] at hi
  | call hc _ => simp [isTransfer_of_isCall hc] at hi

theorem Effect.f {i : Instr} {s t : State} (h : Effect i s t) (hi : writesPsu i = false) : t.f = s.f := by
  cases h with
  | data _ h => exact h.kept.f
  | psu hw _ => simp [hw] at hi
  | halt => rfl
  | jump _ h => exact h.f
  | call _ h => exact h.f

/-- The stack is as before, or one push of IAR away from it, and the latter only by a call. -/
theorem Effect.ras {i : Instr} {s t : State} (h : Effect i s t) :
    t.ras = s.ras ∨ isCall i = true ∧ t.ras = rasSet s.ras (s.sp + 1) s.iar := by
  cases h with
  | data _ h => exact .inl h.kept.control.ras
  | psu _ b => exact .inl (writePsu_controlKept b s).ras
  | halt => exact .inl rfl
  | jump _ h => exact .inl h.control.ras
  | call hc h => exact .inr ⟨hc, by simp [callTo, h.ras, h.sp, h.iar]⟩

theorem Effect.run {i : Instr} {s t : State} (h : Effect i s t) (hi : i ≠ .halt) : t.run = s.run := by
  cases h with
  | data _ h => exact h.kept.control.run
  | psu _ b => exact (writePsu_controlKept b s).run
  | halt hh => exact absurd hh hi
  | jump _ h => exact h.control.run
  | call _ h => exact h.run

/-- The internal latches and the system's parameters: no instruction writes them. -/
theorem Effect.latches {i : Instr} {s t : State} (h : Effect i s t) :
    t.params = s.params ∧ t.prefetch = s.prefetch ∧ t.intWaiting = s.intWaiting := by
  cases h with
  | data _ h => exact h.kept.control.latches
  | psu _ b => exact (writePsu_controlKept b s).latches
  | halt => exact ⟨rfl, rfl, rfl⟩
  | jump _ h => exact h.control.latches
  | call _ h => exact ⟨h.params, h.prefetch, h.intWaiting⟩

theorem addInPage_page (a : Addr) (off : Off) : (addInPage a off).toNat / 8192 = a.toNat / 8192 := by
  rw [addInPage, toNat_inPage, toNat_pageOf]
  omega

theorem branchRel_page (taken : Bool) (d : BitVec 7) (s : State) :
    (branchRel taken false d s).iar.toNat / 8192 = s.iar.toNat / 8192 := by
  cases taken
  · rfl
  · exact addInPage_page _ _

theorem callRel_page (taken : Bool) (d : BitVec 7) (s : State) :
    (callRel taken false d s).iar.toNat / 8192 = s.iar.toNat / 8192 := by
  cases taken
  · rfl
  · exact addInPage_page _ _

/-- A relative branch or call without the indirect bit stays in the page of `next` (30_encoding.md R123). -/
theorem exec_relativeDirect_page {i : Instr} {s t : State} (hi : isRelativeDirect i = true)
    (h : exec i s = .next t) : t.iar.toNat / 8192 = s.iar.toNat / 8192 := by
  cases i with
  | bctr _ ind | bcfr _ ind | brnr _ ind =>
    obtain rfl : ind = false := by simpa [isRelativeDirect] using hi
    cases h; exact branchRel_page _ _ _
  | birr r ind | bdrr r ind =>
    obtain rfl : ind = false := by simpa [isRelativeDirect] using hi
    cases h; rw [branchRel_page, writeReg_iar]
  | bstr _ ind | bsfr _ ind | bsnr _ ind =>
    obtain rfl : ind = false := by simpa [isRelativeDirect] using hi
    cases h; exact callRel_page _ _ _
  | _ => cases hi

/-- Settles O57: each clause is one fact about the effects. -/
theorem controlWriters : Obligations.ControlWriters := by
  intro i s t h
  have he : Effect i s t := exec_effect h
  refine ⟨he.iar, fun hr => exec_relativeDirect_page hr h, fun hf => ?_, fun j hj => ?_, fun hrun => ?_,
    he.latches⟩
  · rw [← writesPsu_iff]
    by_contra hw
    exact hf (he.f (by simpa using hw))
  · obtain hras | ⟨hc, hras⟩ := he.ras
    · exact absurd (by rw [hras]) hj
    · rw [hras, rasGet_rasSet] at hj ⊢
      have hj' : j = s.sp + 1 := by
        by_contra hne
        exact hj (if_neg hne)
      exact ⟨hc, hj', if_pos hj'⟩
  · by_contra hh
    exact hrun (he.run hh)

end Sys2Proof.Machine
end

section
namespace Sys2Proof.Machine

/-! ## O27: the register that is not in view

An update commutes with changing a hidden register when it neither reads nor writes it. Every operation of the
model is shown to commute once; each meaning is a composition of operations. -/

/-- No field names `q` under the current RS (10_state.md R22). -/
def Hidden (q : PhysReg) (s : State) : Prop := ∀ r, regOf r s ≠ q

theorem Hidden.of_psl {q : PhysReg} {s t : State} (h : Hidden q s) (hp : t.psl = s.psl) : Hidden q t := by
  intro r
  rw [regOf, hp]
  exact h r

theorem BusOnly.hidden {q : PhysReg} {s t : State} (hb : BusOnly s t) (h : Hidden q s) : Hidden q t :=
  h.of_psl hb.psl

/-- An operation on a register in view and a byte that leaves a hidden register out of account. -/
def OnlyInView (f : Reg → Byte → State → State) : Prop :=
  ∀ {q : PhysReg} {s : State}, Hidden q s → ∀ (v : Byte) (r : Reg) (b : Byte),
    f r b (setPhys q v s) = setPhys q v (f r b s)

/-- Writing the value it holds into a register changes nothing. -/
theorem setPhys_getPhys (q : PhysReg) (s : State) : setPhys q (getPhys q s) s = s := by
  cases q <;> rfl

theorem next_congr {t u : State} (h : t = u) :
    (.next t : Host.Outcome State Fault Refusal) = .next u := congrArg _ h

/-- Writes to different registers commute. -/
theorem setPhys_comm {p q : PhysReg} (hne : p ≠ q) (w v : Byte) (s : State) :
    setPhys p w (setPhys q v s) = setPhys q v (setPhys p w s) := by
  cases p <;> cases q <;> simp_all [setPhys]

section
variable (q : PhysReg) (v : Byte) (s : State)

/-! ### Updates and bus operations: they touch no register -/

theorem setPsl_setPhys (p : Byte) : setPsl p (setPhys q v s) = setPhys q v (setPsl p s) := by
  cases q <;> rfl

theorem setCC_setPhys (cc : BitVec 2) : setCC cc (setPhys q v s) = setPhys q v (setCC cc s) := by
  cases q <;> rfl

theorem setIar_setPhys (a : Addr) : setIar a (setPhys q v s) = setPhys q v (setIar a s) := by
  cases q <;> rfl

theorem setInhibit_setPhys (b : Bool) : setInhibit b (setPhys q v s) = setPhys q v (setInhibit b s) := by
  cases q <;> rfl

theorem setRun_setPhys (r : RunState) : setRun r (setPhys q v s) = setPhys q v (setRun r s) := by
  cases q <;> rfl

theorem logEvent_setPhys (e : Event) : logEvent e (setPhys q v s) = setPhys q v (logEvent e s) := by
  cases q <;> rfl

theorem nextDraw_setPhys : nextDraw (setPhys q v s) = setPhys q v (nextDraw s) := by
  cases q <;> rfl

theorem push_setPhys (a : Addr) : push a (setPhys q v s) = setPhys q v (push a s) := by
  cases q <;> rfl

theorem popToIar_setPhys : popToIar (setPhys q v s) = setPhys q v (popToIar s) := by
  cases q <;> rfl

theorem memWrite_setPhys (a : Addr) (b : Byte) : memWrite a b (setPhys q v s) = setPhys q v (memWrite a b s) := by
  cases q <;> rfl

theorem ioWrite_setPhys (p : IoPort) (b : Byte) : ioWrite p b (setPhys q v s) = setPhys q v (ioWrite p b s) :=
  logEvent_setPhys q v s _

theorem writePsu_setPhys (b : Byte) : writePsu b (setPhys q v s) = setPhys q v (writePsu b s) := by
  rw [writePsu_spec, writePsu_spec]; cases q <;> rfl

theorem psuByte_setPhys (b : Bool) : psuByte b (setPhys q v s) = psuByte b s := by
  cases q <;> rfl

theorem matchTrue_setPhys (w : BitVec 2) : matchTrue w (setPhys q v s) = matchTrue w s := by
  cases q <;> rfl

theorem matchFalse_setPhys (w : BitVec 2) : matchFalse w (setPhys q v s) = matchFalse w s := by
  cases q <;> rfl

theorem setEnv_setPhys (e : Env) :
    ({ setPhys q v s with env := e } : State) = setPhys q v { s with env := e } := by
  cases q <;> rfl

theorem drawInput_setPhys (src : InputSource) :
    drawInput src (setPhys q v s) = ((drawInput src s).1, setPhys q v (drawInput src s).2) := by
  simp only [drawInput, setPhys_env]
  split
  · rw [setEnv_setPhys]
  · rw [nextDraw_setPhys]

theorem senseSample_setPhys :
    senseSample (setPhys q v s) = ((senseSample s).1, setPhys q v (senseSample s).2) := by
  simp only [senseSample, setPhys_env]
  split
  · rw [setEnv_setPhys]
  · rw [nextDraw_setPhys]

theorem drawBus_setPhys (a : Addr) :
    drawBus a (setPhys q v s) = ((drawBus a s).1, setPhys q v (drawBus a s).2) := by
  simp only [drawBus, setPhys_env, nextDraw_setPhys]

theorem memAnswer_setPhys (a : Addr) :
    memAnswer a (setPhys q v s) = ((memAnswer a s).1, setPhys q v (memAnswer a s).2) := by
  simp only [memAnswer, setPhys_params, setPhys_mem]
  split
  · rfl
  · rfl
  · exact drawInput_setPhys q v s _
  · exact drawBus_setPhys q v s a

theorem memRead_setPhys (a : Addr) :
    memRead a (setPhys q v s) = ((memRead a s).1, setPhys q v (memRead a s).2) := by
  simp only [memRead, memAnswer_setPhys, logEvent_setPhys]

theorem ioRead_setPhys (p : IoPort) :
    ioRead p (setPhys q v s) = ((ioRead p s).1, setPhys q v (ioRead p s).2) := by
  simp only [ioRead, drawInput_setPhys, logEvent_setPhys]

theorem indirectAddr_setPhys (p : Addr) :
    indirectAddr p (setPhys q v s) = ((indirectAddr p s).1, setPhys q v (indirectAddr p s).2) := by
  simp only [indirectAddr, memRead_setPhys]

theorem resolve_setPhys (i : Bool) (p : Addr) :
    resolve i p (setPhys q v s) = ((resolve i p s).1, setPhys q v (resolve i p s).2) := by
  cases i
  · rfl
  · exact indirectAddr_setPhys q v s p

theorem relEA_setPhys (i : Bool) (d : BitVec 7) :
    relEA i d (setPhys q v s) = ((relEA i d s).1, setPhys q v (relEA i d s).2) := by
  simp only [relEA, relBase, setPhys_iar, resolve_setPhys]

theorem zeroRelEA_setPhys (i : Bool) (d : BitVec 7) :
    zeroRelEA i d (setPhys q v s) = ((zeroRelEA i d s).1, setPhys q v (zeroRelEA i d s).2) :=
  resolve_setPhys q v s i _

theorem branchEA_setPhys (i : Bool) (a : Addr) :
    branchEA i a (setPhys q v s) = ((branchEA i a s).1, setPhys q v (branchEA i a s).2) :=
  resolve_setPhys q v s i a

/-! ### Branches, calls and returns: they touch no register of their own -/

theorem branchRel_setPhys (taken i : Bool) (d : BitVec 7) :
    branchRel taken i d (setPhys q v s) = setPhys q v (branchRel taken i d s) := by
  cases taken
  · rfl
  · simp only [branchRel, if_true, relEA_setPhys, setIar_setPhys]

theorem branchAbs_setPhys (taken i : Bool) (a : Addr) :
    branchAbs taken i a (setPhys q v s) = setPhys q v (branchAbs taken i a s) := by
  cases taken
  · rfl
  · simp only [branchAbs, if_true, branchEA_setPhys, setIar_setPhys]

theorem callTo_setPhys (a : Addr) : callTo (a, setPhys q v s) = setPhys q v (callTo (a, s)) := by
  simp only [callTo, setPhys_iar, push_setPhys, setIar_setPhys]

theorem callRel_setPhys (taken i : Bool) (d : BitVec 7) :
    callRel taken i d (setPhys q v s) = setPhys q v (callRel taken i d s) := by
  cases taken
  · rfl
  · simp only [callRel, if_true, relEA_setPhys, callTo_setPhys]

theorem callAbs_setPhys (taken i : Bool) (a : Addr) :
    callAbs taken i a (setPhys q v s) = setPhys q v (callAbs taken i a s) := by
  cases taken
  · rfl
  · simp only [callAbs, if_true, branchEA_setPhys, callTo_setPhys]

theorem return_setPhys (taken enable : Bool) :
    (if taken then takeReturn enable (setPhys q v s) else setPhys q v s) =
      setPhys q v (if taken then takeReturn enable s else s) := by
  cases taken
  · rfl
  · cases enable <;> simp [takeReturn, popToIar_setPhys, setInhibit_setPhys]

end

/-! ### Operations on the registers in view: they commute where `q` is hidden -/

section
variable {q : PhysReg} {s : State} (h : Hidden q s) (v : Byte)
include h

theorem readReg_setPhys (r : Reg) : readReg r (setPhys q v s) = readReg r s := by
  rw [readReg, setPhys_psl, getPhys_setPhys]
  exact if_neg (h r)

/-- R0 is in view under both values of RS. -/
theorem r0_setPhys : (setPhys q v s).r0 = s.r0 := readReg_setPhys h v .r0

theorem writeReg_setPhys (r : Reg) (w : Byte) :
    writeReg r w (setPhys q v s) = setPhys q v (writeReg r w s) := by
  rw [writeReg, setPhys_psl]
  exact setPhys_comm (h r) w v s

end

theorem loadReg_onlyInView : OnlyInView loadReg := fun {q s} h v r b => by
  rw [loadReg, loadReg, writeReg_setPhys h, setCC_setPhys]

theorem addToReg_onlyInView : OnlyInView addToReg := fun {q s} h v r b => by
  simp only [addToReg, setPhys_psl, readReg_setPhys h, writeReg_setPhys h, setPsl_setPhys]

theorem subFromReg_onlyInView : OnlyInView subFromReg := fun {q s} h v r b => by
  simp only [subFromReg, setPhys_psl, readReg_setPhys h, writeReg_setPhys h, setPsl_setPhys]

theorem andReg_onlyInView : OnlyInView andReg := fun {q s} h v r b => by
  rw [andReg, readReg_setPhys h, loadReg_onlyInView h, andReg]

theorem iorReg_onlyInView : OnlyInView iorReg := fun {q s} h v r b => by
  rw [iorReg, readReg_setPhys h, loadReg_onlyInView h, iorReg]

theorem eorReg_onlyInView : OnlyInView eorReg := fun {q s} h v r b => by
  rw [eorReg, readReg_setPhys h, loadReg_onlyInView h, eorReg]

theorem compareReg_onlyInView : OnlyInView compareReg := fun {q s} h v r b => by
  rw [compareReg, setPhys_psl, readReg_setPhys h, setCC_setPhys, compareReg]

section
variable {q : PhysReg} {s : State} (h : Hidden q s) (v : Byte)
include h

theorem rotateTo_setPhys (r : Reg) (new : Byte) (out : Bool) :
    rotateTo r new out (setPhys q v s) = setPhys q v (rotateTo r new out s) := by
  simp only [rotateTo, setPhys_psl, setPhys_params, readReg_setPhys h, writeReg_setPhys h, setPsl_setPhys]

theorem inputTo_setPhys (r : Reg) (p : IoPort) :
    inputTo r p (setPhys q v s) = setPhys q v (inputTo r p s) := by
  rw [inputTo, ioRead_setPhys, loadReg_onlyInView ((busOnly_ioRead p s).hidden h), inputTo]

theorem stepIndex_setPhys (ic : IndexControl) (x : Reg) :
    stepIndex ic x (setPhys q v s) = setPhys q v (stepIndex ic x s) := by
  cases ic
  · rfl
  · rw [stepIndex, readReg_setPhys h, writeReg_setPhys h]; rfl
  · rw [stepIndex, readReg_setPhys h, writeReg_setPhys h]; rfl
  · rfl

theorem absEA_setPhys (x : Reg) (i : Bool) (ic : IndexControl) (a : Off) :
    absEA x i ic a (setPhys q v s) = ((absEA x i ic a s).1, setPhys q v (absEA x i ic a s).2) := by
  have ht : Hidden q (stepIndex ic x s) := h.of_psl (stepIndex_psl ic x s)
  cases ic <;> simp only [absEA, setPhys_iar, stepIndex_setPhys h, resolve_setPhys, readReg_setPhys ht]

theorem hidden_absEA (x : Reg) (i : Bool) (ic : IndexControl) (a : Off) : Hidden q (absEA x i ic a s).2 :=
  (busOnly_absEA x i ic a s).hidden (h.of_psl (stepIndex_psl ic x s))

theorem indexedBranchEA_setPhys (i : Bool) (a : Addr) :
    indexedBranchEA i a (setPhys q v s) =
      ((indexedBranchEA i a s).1, setPhys q v (indexedBranchEA i a s).2) := by
  simp only [indexedBranchEA, setPhys_params, resolve_setPhys, readReg_setPhys h]

/-- Format Z: the operand is a register in view. -/
theorem OnlyInView.withReg {f : Reg → Byte → State → State} (hf : OnlyInView f) (x r : Reg) :
    f x (readReg r (setPhys q v s)) (setPhys q v s) = setPhys q v (f x (readReg r s) s) := by
  rw [readReg_setPhys h, hf h]

/-- Format R: forming the address and reading the operand leave `q` hidden, so `f` decides. -/
theorem OnlyInView.withRel {f : Reg → Byte → State → State} (hf : OnlyInView f) (r : Reg) (i : Bool)
    (d : BitVec 7) : withRel i d (f r) (setPhys q v s) = setPhys q v (withRel i d (f r) s) := by
  have ht : Hidden q (memRead (relEA i d s).1 (relEA i d s).2).2 :=
    ((busOnly_relEA i d s).trans (busOnly_memRead _ _)).hidden h
  simp only [Machine.withRel, relEA_setPhys, memRead_setPhys, hf ht]

/-- Format A, in the same way; the index step writes a register in view. -/
theorem OnlyInView.withAbs {f : Reg → Byte → State → State} (hf : OnlyInView f) (x : Reg) (i : Bool)
    (ic : IndexControl) (a : Off) :
    withAbs x i ic a f (setPhys q v s) = setPhys q v (withAbs x i ic a f s) := by
  have ht : Hidden q (memRead (absEA x i ic a s).1 (absEA x i ic a s).2).2 :=
    (busOnly_memRead _ _).hidden (hidden_absEA h x i ic a)
  simp only [Machine.withAbs, absEA_setPhys h, memRead_setPhys, hf ht]

/-- An instruction commutes with changing a hidden register: it neither reads nor writes it. -/
theorem exec_setPhys (i : Instr) : exec i (setPhys q v s) = mapState (setPhys q v) (exec i s) := by
  cases i with
  | lodz | strz => exact next_congr (loadReg_onlyInView.withReg h v _ _)
  | lodi => exact next_congr (loadReg_onlyInView h v _ _)
  | lodr => exact next_congr (loadReg_onlyInView.withRel h v _ _ _)
  | loda => exact next_congr (loadReg_onlyInView.withAbs h v _ _ _ _)
  | strr => exact next_congr (by rw [relEA_setPhys, readReg_setPhys h, memWrite_setPhys])
  | stra x i ic a =>
    exact next_congr (by rw [absEA_setPhys h, readReg_setPhys (hidden_absEA h x i ic a), memWrite_setPhys])
  | addz => exact next_congr (addToReg_onlyInView.withReg h v _ _)
  | addi => exact next_congr (addToReg_onlyInView h v _ _)
  | addr => exact next_congr (addToReg_onlyInView.withRel h v _ _ _)
  | adda => exact next_congr (addToReg_onlyInView.withAbs h v _ _ _ _)
  | subz => exact next_congr (subFromReg_onlyInView.withReg h v _ _)
  | subi => exact next_congr (subFromReg_onlyInView h v _ _)
  | subr => exact next_congr (subFromReg_onlyInView.withRel h v _ _ _)
  | suba => exact next_congr (subFromReg_onlyInView.withAbs h v _ _ _ _)
  | dar =>
    exact next_congr (by
      rw [setPhys_psl, setPhys_env, readReg_setPhys h, writeReg_setPhys h, nextDraw_setPhys, setCC_setPhys])
  | andz => exact next_congr (andReg_onlyInView.withReg h v _ _)
  | andi => exact next_congr (andReg_onlyInView h v _ _)
  | andr => exact next_congr (andReg_onlyInView.withRel h v _ _ _)
  | anda => exact next_congr (andReg_onlyInView.withAbs h v _ _ _ _)
  | iorz => exact next_congr (iorReg_onlyInView.withReg h v _ _)
  | iori => exact next_congr (iorReg_onlyInView h v _ _)
  | iorr => exact next_congr (iorReg_onlyInView.withRel h v _ _ _)
  | iora => exact next_congr (iorReg_onlyInView.withAbs h v _ _ _ _)
  | eorz => exact next_congr (eorReg_onlyInView.withReg h v _ _)
  | eori => exact next_congr (eorReg_onlyInView h v _ _)
  | eorr => exact next_congr (eorReg_onlyInView.withRel h v _ _ _)
  | eora => exact next_congr (eorReg_onlyInView.withAbs h v _ _ _ _)
  | comz => exact next_congr (compareReg_onlyInView.withReg h v _ _)
  | comi => exact next_congr (compareReg_onlyInView h v _ _)
  | comr => exact next_congr (compareReg_onlyInView.withRel h v _ _ _)
  | coma => exact next_congr (compareReg_onlyInView.withAbs h v _ _ _ _)
  | rrl | rrr => exact next_congr (by rw [setPhys_psl, readReg_setPhys h, rotateTo_setPhys h])
  | lpsu => exact next_congr (by rw [r0_setPhys h, writePsu_setPhys])
  | lpsl => exact next_congr (by rw [r0_setPhys h, setPsl_setPhys])
  | spsu =>
    exact next_congr (by
      rw [senseSample_setPhys, psuByte_setPhys, loadReg_onlyInView ((busOnly_senseSample s).hidden h)])
  | spsl => exact next_congr (by rw [setPhys_psl, loadReg_onlyInView h])
  | ppsu | cpsu => exact next_congr (by rw [psuByte_setPhys, writePsu_setPhys])
  | ppsl | cpsl => exact next_congr (by rw [setPhys_psl, setPsl_setPhys])
  | tpsu => exact next_congr (by rw [senseSample_setPhys, psuByte_setPhys, setCC_setPhys])
  | tpsl => exact next_congr (by rw [setPhys_psl, setCC_setPhys])
  | bctr => exact next_congr (by rw [matchTrue_setPhys, branchRel_setPhys])
  | bcta => exact next_congr (by rw [matchTrue_setPhys, branchAbs_setPhys])
  | bcfr => exact next_congr (by rw [matchFalse_setPhys, branchRel_setPhys])
  | bcfa => exact next_congr (by rw [matchFalse_setPhys, branchAbs_setPhys])
  | brnr => exact next_congr (by rw [readReg_setPhys h, branchRel_setPhys])
  | brna => exact next_congr (by rw [readReg_setPhys h, branchAbs_setPhys])
  | birr | bdrr => exact next_congr (by rw [readReg_setPhys h, writeReg_setPhys h, branchRel_setPhys])
  | bira | bdra => exact next_congr (by rw [readReg_setPhys h, writeReg_setPhys h, branchAbs_setPhys])
  | zbrr => exact next_congr (by rw [zeroRelEA_setPhys, setIar_setPhys])
  | bxa => exact next_congr (by rw [indexedBranchEA_setPhys h, setIar_setPhys])
  | bstr => exact next_congr (by rw [matchTrue_setPhys, callRel_setPhys])
  | bsta => exact next_congr (by rw [matchTrue_setPhys, callAbs_setPhys])
  | bsfr => exact next_congr (by rw [matchFalse_setPhys, callRel_setPhys])
  | bsfa => exact next_congr (by rw [matchFalse_setPhys, callAbs_setPhys])
  | bsnr => exact next_congr (by rw [readReg_setPhys h, callRel_setPhys])
  | bsna => exact next_congr (by rw [readReg_setPhys h, callAbs_setPhys])
  | zbsr => exact next_congr (by rw [zeroRelEA_setPhys, callTo_setPhys])
  | bsxa => exact next_congr (by rw [indexedBranchEA_setPhys h, callTo_setPhys])
  | retc | rete => exact next_congr (by rw [matchTrue_setPhys, return_setPhys])
  | redd | redc | rede => exact next_congr (inputTo_setPhys h v _ _)
  | wrtd | wrtc | wrte => exact next_congr (by rw [readReg_setPhys h, ioWrite_setPhys])
  | nop => rfl
  | tmi => exact next_congr (by rw [readReg_setPhys h, setCC_setPhys])
  | halt => exact next_congr (setRun_setPhys q v s _)
  | indeterminate00 | unassigned10 | unassigned11 | unassigned90 | unassigned91 | unassignedB6 | unassignedB7
  | unassignedC4 | unassignedC5 | unassignedC6 | unassignedC7 => rfl

end

/-- What an instruction that commutes with every change of `q` leaves in `q`. -/
theorem exec_hidden_kept {q : PhysReg} {i : Instr} {s t : State} (h : Hidden q s) (he : exec i s = .next t) :
    getPhys q t = getPhys q s := by
  have hsame : exec i s = mapState (setPhys q (getPhys q s)) (exec i s) := by
    rw [← exec_setPhys h, setPhys_getPhys]
  rw [he] at hsame
  have ht : t = setPhys q (getPhys q s) t := Host.Outcome.next.inj hsame
  rw [ht, getPhys_setPhys_same]

/-- Settles O27. -/
theorem registerBanksAreSeparate : Obligations.RegisterBanksAreSeparate :=
  ⟨fun _ => rfl, ⟨rfl, rfl, rfl⟩, ⟨rfl, rfl, rfl⟩, fun i _ _ h =>
    ⟨fun v => exec_setPhys h v i, fun _ => exec_hidden_kept h⟩⟩

end Sys2Proof.Machine
end

section
namespace Sys2Proof.Machine

/-! ## What the bus operations do to the history and the environment -/

@[simp] theorem drawInput_history (src : InputSource) (s : State) : (drawInput src s).2.history = s.history := by
  unfold drawInput; split <;> rfl

@[simp] theorem senseSample_history (s : State) : (senseSample s).2.history = s.history := by
  unfold senseSample; split <;> rfl

@[simp] theorem samplePins_history (s : State) : (samplePins s).2.history = s.history := by
  unfold samplePins; split <;> rfl

@[simp] theorem vectorAnswer_history (s : State) : (vectorAnswer s).2.history = s.history := by
  unfold vectorAnswer; split <;> rfl

@[simp] theorem memAnswer_history (a : Addr) (s : State) : (memAnswer a s).2.history = s.history := by
  unfold memAnswer
  split
  · rfl
  · rfl
  · exact drawInput_history _ s
  · rfl

/-- A memory read is one event, with the byte it answered. -/
@[simp] theorem memRead_history (a : Addr) (s : State) :
    (memRead a s).2.history = .memRead a (memRead a s).1 :: s.history := by
  show Event.memRead a (memAnswer a s).1 :: (memAnswer a s).2.history = _
  rw [memAnswer_history]; rfl

@[simp] theorem ioRead_history (p : IoPort) (s : State) :
    (ioRead p s).2.history = .ioRead p (ioRead p s).1 :: s.history := by
  show Event.ioRead p (drawInput (.port p) s).1 :: (drawInput (.port p) s).2.history = _
  rw [drawInput_history]; rfl

@[simp] theorem vectorRead_history (s : State) :
    (vectorRead s).2.history = .vectorRead (vectorRead s).1 :: s.history := by
  show Event.vectorRead (vectorAnswer s).1 :: (vectorAnswer s).2.history = _
  rw [vectorAnswer_history]; rfl

/-! ### What a memory read answers, kind by kind (20_memory.md R89) -/

theorem drawInput_of_cons (src : InputSource) {s : State} {b : Byte} {rest : List Byte}
    (h : s.env.inputs = b :: rest) :
    drawInput src s = (b, { s with env := { s.env with inputs := rest } }) := by
  rw [drawInput, h]

theorem drawInput_of_nil (src : InputSource) {s : State} (h : s.env.inputs = []) :
    drawInput src s = (Config.freeInput src s.env.draws, nextDraw s) := by
  rw [drawInput, h]

/-- What a read answers, and the environment after it, are those of `memAnswer`. -/
theorem memRead_answer (a : Addr) (s : State) :
    (memRead a s).1 = (memAnswer a s).1 ∧ (memRead a s).2.env = (memAnswer a s).2.env := ⟨rfl, rfl⟩

theorem memAnswer_device {a : Addr} {s : State} (h : kindAt s.params.memMap a = .device) :
    memAnswer a s = drawInput (.memory a) s := by rw [memAnswer, h]

theorem memAnswer_absent {a : Addr} {s : State} (h : kindAt s.params.memMap a = .absent) :
    memAnswer a s = drawBus a s := by rw [memAnswer, h]

/-- Settles O25: one lemma for each kind. -/
theorem memoryReadByKind : Obligations.MemoryReadByKind := by
  intro s a
  obtain ⟨hbyte, henv⟩ := memRead_answer a s
  refine ⟨busOnly_memRead a s, memRead_history a s, fun hk => ?_, fun hk b rest hin => ?_, fun hk hin => ?_,
    fun hk => ?_⟩
  · rw [memRead_stored hk]; exact ⟨rfl, rfl⟩
  · rw [hbyte, henv, memAnswer_device hk, drawInput_of_cons _ hin]; exact ⟨rfl, rfl⟩
  · rw [henv, memAnswer_device hk, drawInput_of_nil _ hin]; rfl
  · rw [henv, memAnswer_absent hk]; rfl

/-- Settles O26, by the two laws of `memStore`. -/
theorem memoryReadAfterWrite : Obligations.MemoryReadAfterWrite := fun s a b v h =>
  ⟨memStore_wf a v s h, memStore_read a b v s h⟩

/-! ## Indirect addresses (20_memory.md R76, R77) -/

theorem toNat_inc13 (p : Addr) : (inc13 p).toNat = 8192 * (p.toNat / 8192) + (p.toNat % 8192 + 1) % 8192 := by
  rw [inc13, toNat_inPage, toNat_pageOf, BitVec.toNat_add, toNat_offOf]; rfl

/-- The pointer is in the bytes of two reads, whatever stands there. -/
theorem toNat_indirectAddr (p : Addr) (s : State) :
    (indirectAddr p s).1.toNat =
      256 * ((memRead p s).1.toNat % 128) + (memRead (inc13 p) (memRead p s).2).1.toNat :=
  toNat_pointer _ _

/-- Settles O19: with stored bytes both reads are those of `memRead_stored`. -/
theorem indirectAddress : Obligations.IndirectAddress := by
  intro s p q hi lo
  refine ⟨toNat_inc13 p, toNat_indirectAddr p s, rfl, fun hp hq => ?_⟩
  have hhi : hi = (s.mem.read p, logEvent (.memRead p (s.mem.read p)) s) := memRead_stored hp
  have hlo : lo = (s.mem.read q,
      { s with history := .memRead q (s.mem.read q) :: .memRead p (s.mem.read p) :: s.history }) := by
    show memRead q hi.2 = _
    rw [hhi]; exact memRead_stored hq
  have hea : (indirectAddr p s).1.toNat = 256 * (hi.1.toNat % 128) + lo.1.toNat := toNat_indirectAddr p s
  have hst : (indirectAddr p s).2 = lo.2 := rfl
  rw [hea, hst, hlo, hhi]
  exact ⟨rfl, rfl⟩

/-! ## The signals of the bus operations (20_memory.md R87) -/

theorem lineHigh_some (line : BusSignals → Bool) {e : Event} {b : BusSignals} (h : e.signals = some b) :
    lineHigh line (some e) = line b := by
  simp [lineHigh, h]

/-- One row of the table of signals: OPREQ is high, and the WRP pulse comes in a write. -/
theorem signals_row {e : Event} {b : BusSignals} {row : Bool × Bool × Option Bool × Option Bool × Bool}
    (h : e.signals = some b) (hrow : (b.mIO, b.rW, b.adr13, b.adr14, b.intack) = row) (hreq : b.opreq = true)
    (hwrp : b.wrp = b.rW) :
    (e.signals.map fun b => (b.mIO, b.rW, b.adr13, b.adr14, b.intack)) = some row ∧
      opreqPin (some e) = true ∧ (wrpPin (some e), intackPin (some e)) = (row.2.1, row.2.2.2.2) := by
  subst hrow
  refine ⟨by rw [h]; rfl, (lineHigh_some _ h).trans hreq, ?_⟩
  rw [wrpPin, intackPin, lineHigh_some _ h, lineHigh_some _ h, hwrp]

/-- Settles O24, row by row. -/
theorem busSignalTable : Obligations.BusSignalTable := by
  intro a v n
  simp only [List.forall_mem_cons]
  exact ⟨⟨rfl, rfl, rfl, List.forall_mem_nil _⟩, signals_row rfl rfl rfl rfl,
    signals_row rfl rfl rfl rfl, signals_row rfl rfl rfl rfl, signals_row rfl rfl rfl rfl,
    signals_row rfl rfl rfl rfl, signals_row rfl rfl rfl rfl, signals_row rfl rfl rfl rfl,
    signals_row rfl rfl rfl rfl, signals_row rfl rfl rfl rfl, List.forall_mem_nil _⟩

end Sys2Proof.Machine
end

section
namespace Sys2Proof.Machine

/-! ## What an update does to the stored bytes and the history

Of the instructions the two stores alone end in `memWrite`; everything else stores nothing, and no operation takes
an event out of the history. -/

/-- The stored bytes are as before, and the history has at most grown. -/
structure Quiet (s t : State) : Prop where
  mem : t.mem = s.mem
  history : s.history <:+ t.history

theorem Quiet.refl (s : State) : Quiet s s := ⟨rfl, List.suffix_rfl⟩

theorem Quiet.trans {s t u : State} (h : Quiet s t) (k : Quiet t u) : Quiet s u :=
  ⟨k.mem.trans h.mem, h.history.trans k.history⟩

theorem Quiet.bytesKept {s t : State} (h : Quiet s t) : BytesKept s t := fun a => by rw [h.mem]

/-- An update that leaves memory and history alone. -/
theorem Quiet.of_eq {s t : State} (hm : t.mem = s.mem) (hh : t.history = s.history) : Quiet s t :=
  ⟨hm, hh ▸ List.suffix_rfl⟩

/-- An update that adds one event. -/
theorem Quiet.of_cons {s t : State} {e : Event} (hm : t.mem = s.mem) (hh : t.history = e :: s.history) :
    Quiet s t := ⟨hm, hh ▸ List.suffix_cons e s.history⟩

/-! ### Bus operations and addresses -/

theorem quiet_senseSample (s : State) : Quiet s (senseSample s).2 :=
  .of_eq (senseSample_mem s) (senseSample_history s)

theorem quiet_samplePins (s : State) : Quiet s (samplePins s).2 :=
  .of_eq (samplePins_mem s) (samplePins_history s)

theorem quiet_memRead (a : Addr) (s : State) : Quiet s (memRead a s).2 :=
  .of_cons (memRead_mem a s) (memRead_history a s)

theorem quiet_ioRead (p : IoPort) (s : State) : Quiet s (ioRead p s).2 :=
  .of_cons (ioRead_mem p s) (ioRead_history p s)

theorem quiet_vectorRead (s : State) : Quiet s (vectorRead s).2 :=
  .of_cons (vectorRead_mem s) (vectorRead_history s)

theorem quiet_ioWrite (p : IoPort) (v : Byte) (s : State) : Quiet s (ioWrite p v s) :=
  .of_cons rfl rfl

theorem quiet_resolve (i : Bool) (p : Addr) (s : State) : Quiet s (resolve i p s).2 := by
  cases i
  · exact .refl s
  · exact (quiet_memRead p s).trans (quiet_memRead _ _)

theorem quiet_relEA (i : Bool) (d : BitVec 7) (s : State) : Quiet s (relEA i d s).2 := quiet_resolve i _ s

theorem quiet_zeroRelEA (i : Bool) (d : BitVec 7) (s : State) : Quiet s (zeroRelEA i d s).2 :=
  quiet_resolve i _ s

theorem quiet_branchEA (i : Bool) (a : Addr) (s : State) : Quiet s (branchEA i a s).2 := quiet_resolve i a s

theorem quiet_indexedBranchEA (i : Bool) (a : Addr) (s : State) : Quiet s (indexedBranchEA i a s).2 :=
  quiet_resolve i a s

theorem quiet_absEA (x : Reg) (i : Bool) (ic : IndexControl) (a : Off) (s : State) :
    Quiet s (absEA x i ic a s).2 := by
  have hstep : Quiet s (stepIndex ic x s) := .of_eq (stepIndex_mem ic x s) (stepIndex_history ic x s)
  cases ic <;> exact hstep.trans (quiet_resolve i _ _)

/-! ### The shapes shared by the meanings -/

theorem quiet_setIar (a : Addr) (s : State) : Quiet s (setIar a s) := .of_eq rfl rfl

theorem quiet_setCC (cc : BitVec 2) (s : State) : Quiet s (setCC cc s) := .of_eq rfl rfl

theorem quiet_writeReg (r : Reg) (v : Byte) (s : State) : Quiet s (writeReg r v s) :=
  .of_eq (writeReg_mem s r v) (writeReg_history s r v)

/-- A register write and then PSL: what loads, the adder and the rotates do. -/
theorem quiet_setPsl_writeReg (p : Byte) (r : Reg) (v : Byte) (s : State) :
    Quiet s (setPsl p (writeReg r v s)) :=
  (quiet_writeReg r v s).trans (.of_eq rfl rfl)

theorem quiet_loadReg (r : Reg) (v : Byte) (s : State) : Quiet s (loadReg r v s) :=
  quiet_setPsl_writeReg _ r v s

theorem quiet_inputTo (r : Reg) (p : IoPort) (s : State) : Quiet s (inputTo r p s) :=
  (quiet_ioRead p s).trans (quiet_loadReg r _ _)

theorem quiet_writeFlag (b : Bool) (s : State) : Quiet s (writeFlag b s) := by
  unfold writeFlag
  split
  · exact .refl s
  · exact .of_cons rfl rfl

/-- The flag latch written in a state reached quietly. -/
theorem Quiet.writeFlag {s t : State} (h : Quiet s t) (b : Bool) : Quiet s (writeFlag b t) :=
  h.trans (quiet_writeFlag b t)

theorem quiet_writePsu (b : Byte) (s : State) : Quiet s (writePsu b s) := by
  apply Quiet.writeFlag
  exact .of_eq rfl rfl

/-- Format R: forming the address and reading the operand store nothing, so `f` decides. -/
theorem quiet_withRel {f : Byte → State → State} (hf : ∀ b t, Quiet t (f b t)) (i : Bool) (d : BitVec 7)
    (s : State) : Quiet s (withRel i d f s) :=
  ((quiet_relEA i d s).trans (quiet_memRead _ _)).trans (hf _ _)

/-- Format A, in the same way. -/
theorem quiet_withAbs {f : Reg → Byte → State → State} (hf : ∀ r b t, Quiet t (f r b t)) (x : Reg) (i : Bool)
    (ic : IndexControl) (a : Off) (s : State) : Quiet s (withAbs x i ic a f s) :=
  ((quiet_absEA x i ic a s).trans (quiet_memRead _ _)).trans (hf _ _ _)

theorem quiet_branchRel (taken i : Bool) (d : BitVec 7) (s : State) : Quiet s (branchRel taken i d s) := by
  cases taken
  · exact .refl s
  · exact (quiet_relEA i d s).trans (quiet_setIar _ _)

theorem quiet_branchAbs (taken i : Bool) (a : Addr) (s : State) : Quiet s (branchAbs taken i a s) := by
  cases taken
  · exact .refl s
  · exact (quiet_branchEA i a s).trans (quiet_setIar _ _)

/-- A call to an effective address that was formed from `s`. -/
theorem Quiet.callTo {s : State} {ea : Addr × State} (h : Quiet s ea.2) : Quiet s (callTo ea) :=
  h.trans (.of_eq rfl rfl)

theorem quiet_callRel (taken i : Bool) (d : BitVec 7) (s : State) : Quiet s (callRel taken i d s) := by
  cases taken
  · exact .refl s
  · exact (quiet_relEA i d s).callTo

theorem quiet_callAbs (taken i : Bool) (a : Addr) (s : State) : Quiet s (callAbs taken i a s) := by
  cases taken
  · exact .refl s
  · exact (quiet_branchEA i a s).callTo

theorem quiet_return (taken enable : Bool) (s : State) :
    Quiet s (if taken then takeReturn enable s else s) := by
  cases taken
  · exact .refl s
  · cases enable <;> exact .of_eq rfl rfl

/-! ### The instructions -/

/-- The ways in which a meaning can touch the stored bytes: not at all, or by one bus write at the end. -/
inductive StoreEffect (i : Instr) (s : State) : State → Prop
  | quiet {t : State} (h : Quiet s t) : StoreEffect i s t
  | store (hi : isStore i = true) {u : State} (h : Quiet s u) (a : Addr) (v : Byte) :
      StoreEffect i s (memWrite a v u)

/-- Every instruction that has a next state reaches it by one of the two. -/
theorem exec_storeEffect {i : Instr} {s t : State} (h : exec i s = .next t) : StoreEffect i s t := by
  cases i with
  | strr => cases h; exact .store rfl (quiet_relEA _ _ _) _ _
  | stra => cases h; exact .store rfl (quiet_absEA _ _ _ _ _) _ _
  | lodz | lodi | strz | andz | andi | iorz | iori | eorz | eori | spsl =>
    cases h; exact .quiet (quiet_loadReg _ _ _)
  | lodr | andr | iorr | eorr =>
    cases h; exact .quiet (quiet_withRel (fun _ _ => quiet_loadReg _ _ _) _ _ _)
  | loda | anda | iora | eora =>
    cases h; exact .quiet (quiet_withAbs (fun _ _ _ => quiet_loadReg _ _ _) _ _ _ _ _)
  | addz | addi | subz | subi | rrl | rrr => cases h; exact .quiet (quiet_setPsl_writeReg _ _ _ _)
  | addr | subr => cases h; exact .quiet (quiet_withRel (fun _ _ => quiet_setPsl_writeReg _ _ _ _) _ _ _)
  | adda | suba =>
    cases h; exact .quiet (quiet_withAbs (fun _ _ _ => quiet_setPsl_writeReg _ _ _ _) _ _ _ _ _)
  | dar => cases h; exact .quiet ((quiet_writeReg _ _ _).trans (.of_eq rfl rfl))
  | comz | comi | tmi | tpsl => cases h; exact .quiet (quiet_setCC _ _)
  | comr => cases h; exact .quiet (quiet_withRel (fun _ _ => quiet_setCC _ _) _ _ _)
  | coma => cases h; exact .quiet (quiet_withAbs (fun _ _ _ => quiet_setCC _ _) _ _ _ _ _)
  | lpsu | ppsu | cpsu => cases h; exact .quiet (quiet_writePsu _ _)
  | lpsl | ppsl | cpsl | halt => cases h; exact .quiet (.of_eq rfl rfl)
  | spsu => cases h; exact .quiet ((quiet_senseSample _).trans (quiet_loadReg _ _ _))
  | tpsu => cases h; exact .quiet ((quiet_senseSample _).trans (quiet_setCC _ _))
  | bctr | bcfr | brnr => cases h; exact .quiet (quiet_branchRel _ _ _ _)
  | bcta | bcfa | brna => cases h; exact .quiet (quiet_branchAbs _ _ _ _)
  | birr | bdrr => cases h; exact .quiet ((quiet_writeReg _ _ _).trans (quiet_branchRel _ _ _ _))
  | bira | bdra => cases h; exact .quiet ((quiet_writeReg _ _ _).trans (quiet_branchAbs _ _ _ _))
  | zbrr => cases h; exact .quiet ((quiet_zeroRelEA _ _ _).trans (quiet_setIar _ _))
  | bxa => cases h; exact .quiet ((quiet_indexedBranchEA _ _ _).trans (quiet_setIar _ _))
  | bstr | bsfr | bsnr => cases h; exact .quiet (quiet_callRel _ _ _ _)
  | bsta | bsfa | bsna => cases h; exact .quiet (quiet_callAbs _ _ _ _)
  | zbsr => cases h; exact .quiet (quiet_zeroRelEA _ _ _).callTo
  | bsxa => cases h; exact .quiet (quiet_indexedBranchEA _ _ _).callTo
  | retc | rete => cases h; exact .quiet (quiet_return _ _ _)
  | redd | redc | rede => cases h; exact .quiet (quiet_inputTo _ _ _)
  | wrtd | wrtc | wrte => cases h; exact .quiet (quiet_ioWrite _ _ _)
  | nop => cases h; exact .quiet (.refl _)
  | indeterminate00 | unassigned10 | unassigned11 | unassigned90 | unassigned91 | unassignedB6 | unassignedB7
  | unassignedC4 | unassignedC5 | unassignedC6 | unassignedC7 => cases h

theorem StoreEffect.quiet_of_not_store {i : Instr} {s t : State} (h : StoreEffect i s t)
    (hi : isStore i = false) : Quiet s t := by
  cases h with
  | quiet h => exact h
  | store hs => rw [hi] at hs; cases hs

theorem StoreEffect.history {i : Instr} {s t : State} (h : StoreEffect i s t) : s.history <:+ t.history := by
  cases h with
  | quiet h => exact h.history
  | store _ h => exact h.history.trans (List.suffix_cons _ _)

theorem StoreEffect.mem_wf {i : Instr} {s t : State} (h : StoreEffect i s t) (hs : s.mem.wf = true) :
    t.mem.wf = true := by
  cases h with
  | quiet h => rw [h.mem]; exact hs
  | store _ h a v => exact memStore_wf a v _ (by rw [h.mem]; exact hs)

/-! ### Interrupts, RESET, PAUSE and the fetch -/

theorem quiet_lookAhead (s : State) : Quiet s (lookAhead s) := by
  unfold lookAhead
  split
  · exact .refl s
  · exact quiet_memRead _ s

theorem quiet_acceptInterrupt (s : State) : Quiet s (acceptInterrupt s) := by
  have hinhibit : Quiet s (setInhibit true (lookAhead s)) := (quiet_lookAhead s).trans (.of_eq rfl rfl)
  have hvector := hinhibit.trans (quiet_vectorRead _)
  exact (hvector.trans (quiet_zeroRelEA _ _ _)).trans (.of_eq rfl rfl)

theorem quiet_resetCore (s : State) : Quiet s (resetCore s) := by
  apply Quiet.writeFlag
  exact .of_eq rfl rfl

theorem quiet_applyReset (pause : Bool) (s : State) : Quiet s (applyReset pause s) := by
  cases pause
  · exact quiet_resetCore s
  · exact ((quiet_resetCore s).trans (quiet_memRead 0 _)).trans (.of_eq rfl rfl)

theorem quiet_enterPause (intreq : Bool) (s : State) : Quiet s (enterPause intreq s) := .of_eq rfl rfl

theorem quiet_fetchByte (s : State) : Quiet s (fetchByte s).2 := (quiet_memRead _ s).trans (quiet_setIar _ _)

theorem quiet_fetchFirst (s : State) : Quiet s (fetchFirst s).2 := by
  unfold fetchFirst
  split
  · exact .of_eq rfl rfl
  · exact quiet_fetchByte s

/-- A fetch is the first byte and then up to two more: what holds after the first and is kept by one more byte
holds after the fetch. -/
theorem fetchInstr_of_fetchByte {P : State → Prop} (s : State) (hfirst : P (fetchFirst s).2)
    (hbyte : ∀ t, P t → P (fetchByte t).2) : P (fetchInstr s).2 := by
  unfold fetchInstr
  dsimp only
  split
  · exact hfirst
  · exact hbyte _ hfirst
  · exact hbyte _ (hbyte _ hfirst)

theorem quiet_fetchInstr (s : State) : Quiet s (fetchInstr s).2 :=
  fetchInstr_of_fetchByte s (quiet_fetchFirst s) fun t h => h.trans (quiet_fetchByte t)

/-- Settles O54. -/
theorem onlyStoresWriteMemory : Obligations.OnlyStoresWriteMemory :=
  ⟨fun _ _ _ hi h => ((exec_storeEffect h).quiet_of_not_store hi).bytesKept,
    fun s => (quiet_acceptInterrupt s).bytesKept, fun b s => (quiet_applyReset b s).bytesKept⟩

/-! ## What a step can do -/

/-- What the boundary decides from the pins, with the guards of each case (60_exceptions.md R288, R289, R295,
R318, 70_reset_and_hazards.md R320, R323). -/
inductive Decides (p : Pins) (s : State) : Action → Prop
  | reset (hr : p.reset = true) : Decides p s (.done (applyReset p.pause s))
  | pause (hr : p.reset = false) (hs : s.run = .running) (hp : p.pause = true) :
      Decides p s (.done (enterPause p.intreq s))
  | accept (hr : p.reset = false)
      (hg : s.run = .running ∧ p.pause = false ∧ accepts p.intreq s = true ∨
        s.run = .haltWait ∧ acceptsInHalt p s = true ∨
        s.run = .pauseWait ∧ p.pause = false ∧ s.intWaiting = true) :
      Decides p s (.done (acceptInterrupt s))
  | hold (hr : p.reset = false)
      (hg : s.run = .haltWait ∧ acceptsInHalt p s = false ∨ s.run = .pauseWait ∧ p.pause = true) :
      Decides p s (.done s)
  | run (hr : p.reset = false) (hs : s.run = .running) (hp : p.pause = false)
      (ha : accepts p.intreq s = false) : Decides p s (.runNext s)
  | resume (hr : p.reset = false) (hs : s.run = .pauseWait) (hp : p.pause = false)
      (hw : s.intWaiting = false) : Decides p s (.runNext (setRun .running s))

theorem boundaryWith_decides (p : Pins) (s : State) : Decides p s (boundaryWith p s) := by
  unfold boundaryWith
  cases hr : p.reset
  case true => exact .reset hr
  case false =>
    cases hs : s.run
    case running =>
      cases hp : p.pause
      case true => simpa [hp] using Decides.pause hr hs hp
      case false =>
        cases ha : accepts p.intreq s
        case true => simpa using Decides.accept hr (.inl ⟨hs, hp, ha⟩)
        case false => simpa using Decides.run hr hs hp ha
    case haltWait =>
      cases ha : acceptsInHalt p s
      case true => simpa using Decides.accept hr (.inr (.inl ⟨hs, ha⟩))
      case false => simpa using Decides.hold hr (.inl ⟨hs, ha⟩)
    case pauseWait =>
      cases hp : p.pause
      case true => simpa using Decides.hold hr (.inr ⟨hs, hp⟩)
      case false =>
        cases hw : s.intWaiting
        case true => simpa [leavePause, hw] using Decides.accept hr (.inr (.inr ⟨hs, hp, hw⟩))
        case false => simpa [leavePause, hw] using Decides.resume hr hs hp hw

/-- What a decision leads to when the step has a next state: the state it ends in, or the state after the
instruction. -/
def Action.LeadsTo (t : State) : Action → Prop
  | .done u => t = u
  | .runNext u => runInstruction u = .next t

theorem step_leadsTo {s t : State} (h : step s = .next t) : (boundary s).LeadsTo t := by
  unfold step at h
  cases hb : boundary s with
  | done u => rw [hb] at h; exact (Host.Outcome.next.inj h).symm
  | runNext u => rw [hb] at h; exact h

/-- A step is a sample of the pins, a decision, and what the decision leads to. -/
theorem step_decides {s t : State} (h : step s = .next t) :
    ∃ act, Decides (samplePins s).1 (samplePins s).2 act ∧ act.LeadsTo t :=
  ⟨boundary s, boundaryWith_decides _ _, step_leadsTo h⟩

/-! ## O58: the history only grows -/

theorem runInstruction_history {s t : State} (h : runInstruction s = .next t) : s.history <:+ t.history :=
  (quiet_fetchInstr s).history.trans (exec_storeEffect h).history

theorem decides_history {p : Pins} {s t : State} {act : Action} (hd : Decides p s act) (h : act.LeadsTo t) :
    s.history <:+ t.history := by
  cases hd with
  | reset => cases h; exact (quiet_applyReset _ s).history
  | pause => cases h; exact (quiet_enterPause _ s).history
  | accept => cases h; exact (quiet_acceptInterrupt s).history
  | hold => cases h; exact List.suffix_rfl
  | run => exact runInstruction_history h
  | resume => exact runInstruction_history (s := setRun .running s) h

/-- Settles O58: the sample adds no event, and each decision leads to a longer history. -/
theorem historyOnlyGrows : Obligations.HistoryOnlyGrows := fun s t h => by
  obtain ⟨act, hd, hl⟩ := step_decides h
  obtain ⟨new, hnew⟩ := decides_history hd hl
  exact ⟨new, by rw [← hnew, samplePins_history]⟩

/-! ## O60: the invariant -/

/-- Bus operations touch nothing the invariant speaks of. -/
theorem BusOnly.inv {s t : State} (hb : BusOnly s t) (h : Inv s) : Inv t := by
  unfold Inv
  rw [hb.mem, hb.prefetch, hb.run, hb.iar, hb.intWaiting, hb.ii]
  exact h

/-- With the two latches empty the invariant asks for the canonical form alone. -/
theorem inv_of_latches_empty {t : State} (hm : t.mem.wf = true) (hp : t.prefetch = none)
    (hw : t.intWaiting = false) : Inv t :=
  ⟨hm, by simp [hp], by simp [hw]⟩

/-- The latches after the RESET itself: both are empty, and IAR is at 0. -/
theorem resetCore_latches (s : State) :
    (resetCore s).iar = 0 ∧ (resetCore s).intWaiting = false ∧ (resetCore s).prefetch = none := by
  simp only [resetCore, writeFlag_spec, and_self]

theorem inv_applyReset (pause : Bool) {s : State} (hm : s.mem.wf = true) : Inv (applyReset pause s) := by
  obtain ⟨hiar, hwait, hlatch⟩ := resetCore_latches s
  have hwf : (applyReset pause s).mem.wf = true := by rw [(quiet_applyReset pause s).mem]; exact hm
  cases pause
  case false => exact inv_of_latches_empty hwf hlatch hwait
  case true =>
    have hb : BusOnly (resetCore s) (memRead 0 (resetCore s)).2 := busOnly_memRead _ _
    refine ⟨hwf, fun _ => ⟨rfl, hb.iar.trans hiar⟩, fun h => ?_⟩
    exact absurd (h.symm.trans (hb.intWaiting.trans hwait)) Bool.noConfusion

/-- PAUSE stops a running processor, which holds no latched byte; a request is remembered only with II = 0. -/
theorem inv_enterPause (intreq : Bool) {s : State} (hs : s.run = .running) (h : Inv s) :
    Inv (enterPause intreq s) := by
  obtain ⟨hm, hlatch, -⟩ := h
  refine ⟨hm, fun hp => ?_, fun hw => ⟨rfl, ?_⟩⟩
  · obtain ⟨hrun, -⟩ := hlatch hp
    rw [hs] at hrun; cases hrun
  · obtain ⟨-, hii⟩ : intreq = true ∧ (!s.ii) = true := Bool.and_eq_true_iff.mp hw
    exact (Bool.not_eq_true' _).mp hii

theorem inv_acceptInterrupt {s : State} (hm : s.mem.wf = true) : Inv (acceptInterrupt s) :=
  inv_of_latches_empty (by rw [(quiet_acceptInterrupt s).mem]; exact hm) rfl rfl

/-- `t` holds no latched byte, and the interrupt-waiting signal is as in `s`. -/
def LatchConsumed (s t : State) : Prop := t.prefetch = none ∧ t.intWaiting = s.intWaiting

theorem latchConsumed_fetchByte {s t : State} (h : LatchConsumed s t) : LatchConsumed s (fetchByte t).2 :=
  ⟨(busOnly_memRead _ t).prefetch.trans h.1, (busOnly_memRead _ t).intWaiting.trans h.2⟩

theorem latchConsumed_fetchFirst (s : State) : LatchConsumed s (fetchFirst s).2 := by
  unfold fetchFirst
  split
  · exact ⟨rfl, rfl⟩
  · next hp => exact latchConsumed_fetchByte ⟨hp, rfl⟩

/-- An instruction uses up the latched byte and leaves the interrupt-waiting signal alone. -/
theorem latchConsumed_fetchInstr (s : State) : LatchConsumed s (fetchInstr s).2 :=
  fetchInstr_of_fetchByte s (latchConsumed_fetchFirst s) fun _ => latchConsumed_fetchByte

theorem inv_runInstruction {s t : State} (hm : s.mem.wf = true) (hw : s.intWaiting = false)
    (h : runInstruction s = .next t) : Inv t := by
  obtain ⟨hprefetch, hwaiting⟩ := latchConsumed_fetchInstr s
  obtain ⟨-, hlatch, hwait⟩ := (exec_effect h).latches
  have hwf : (fetchInstr s).2.mem.wf = true := by rw [(quiet_fetchInstr s).mem]; exact hm
  exact inv_of_latches_empty ((exec_storeEffect h).mem_wf hwf) (hlatch.trans hprefetch)
    (hwait.trans (hwaiting.trans hw))

/-- In RUN no request waits: the signal is up in a PAUSE wait only. -/
theorem Inv.intWaiting_of_running {s : State} (h : Inv s) (hs : s.run = .running) : s.intWaiting = false := by
  obtain ⟨-, -, hwait⟩ := h
  by_contra hw
  obtain ⟨hrun, -⟩ := hwait (by simpa using hw)
  rw [hs] at hrun; cases hrun

theorem decides_inv {p : Pins} {s t : State} {act : Action} (hi : Inv s) (hd : Decides p s act)
    (h : act.LeadsTo t) : Inv t := by
  have hm : s.mem.wf = true := hi.1
  cases hd with
  | reset => cases h; exact inv_applyReset _ hm
  | pause _ hs => cases h; exact inv_enterPause _ hs hi
  | accept => cases h; exact inv_acceptInterrupt hm
  | hold => cases h; exact hi
  | run _ hs => exact inv_runInstruction hm (hi.intWaiting_of_running hs) h
  | resume _ _ _ hw => exact inv_runInstruction (s := setRun .running s) hm hw h

/-- Settles O60: the sample is a bus operation, and each decision keeps the invariant. -/
theorem stepKeepsInvariant : Obligations.StepKeepsInvariant := fun s _ hi h => by
  obtain ⟨_, hd, hl⟩ := step_decides h
  exact decides_inv ((busOnly_samplePins s).inv hi) hd hl

end Sys2Proof.Machine
end

section
namespace Sys2Proof

/-! ## Fields and the bytes they stand in (30_encoding.md R110, R115 to R119) -/

@[simp] theorem opcode_opByte (op : BitVec 6) (f : BitVec 2) : (opByte op f).extractLsb' 2 6 = op :=
  BitVec.extractLsb'_append_eq_left

@[simp] theorem fieldV_opByte (op : BitVec 6) (f : BitVec 2) : fieldV (opByte op f) = f :=
  BitVec.extractLsb'_append_eq_right

@[simp] theorem Reg.ofBits_bits (r : Reg) : Reg.ofBits r.bits = r := by cases r <;> rfl

@[simp] theorem Reg.bits_ofBits (n : BitVec 2) : (Reg.ofBits n).bits = n := by revert n; decide

@[simp] theorem IndexControl.ofBits_bits (ic : IndexControl) : IndexControl.ofBits ic.bits = ic := by
  cases ic <;> rfl

@[simp] theorem IndexControl.bits_ofBits (n : BitVec 2) : (IndexControl.ofBits n).bits = n := by
  revert n; decide

@[simp] theorem fieldR_opByte (op : BitVec 6) (r : Reg) : fieldR (opByte op r.bits) = r := by
  rw [fieldR, fieldV_opByte, Reg.ofBits_bits]

/-- Every two-bit field names a register, so that a case split over `Reg` is one over the field. -/
theorem exists_bits (v : BitVec 2) : ∃ r : Reg, r.bits = v := ⟨Reg.ofBits v, Reg.bits_ofBits v⟩

/-- A byte is an operation code and a register field. -/
theorem exists_opByte (b0 : Byte) : ∃ (op : BitVec 6) (r : Reg), opByte op r.bits = b0 := by
  obtain ⟨r, hr⟩ := exists_bits (fieldV b0)
  exact ⟨b0.extractLsb' 2 6, r, by rw [hr]; exact BitVec.extractLsb'_append_extractLsb'⟩

theorem ofBool_fieldI (b1 : Byte) : BitVec.ofBool (fieldI b1) = b1.extractLsb' 7 1 := by
  ext k hk
  obtain rfl : k = 0 := by omega
  simp [fieldI]

theorem fieldI_append (i : Bool) (w : BitVec 7) : fieldI (BitVec.ofBool i ++ w) = i :=
  BitVec.getLsbD_append.trans (by simp)

@[simp] theorem fieldI_relByte (i : Bool) (d : BitVec 7) : fieldI (relByte i d) = i := fieldI_append i d

@[simp] theorem fieldD_relByte (i : Bool) (d : BitVec 7) : fieldD (relByte i d) = d :=
  BitVec.extractLsb'_append_eq_right

@[simp] theorem relByte_fields (b1 : Byte) : relByte (fieldI b1) (fieldD b1) = b1 := by
  rw [relByte, ofBool_fieldI]; exact BitVec.extractLsb'_append_extractLsb'

@[simp] theorem fieldI_absByte (i : Bool) (ic : IndexControl) (a : Off) : fieldI (absByte i ic a) = i :=
  BitVec.getLsbD_append.trans (BitVec.getLsbD_append.trans (by simp))

@[simp] theorem fieldIc_absByte (i : Bool) (ic : IndexControl) (a : Off) : fieldIc (absByte i ic a) = ic := by
  rw [fieldIc, absByte, BitVec.extractLsb'_append_eq_of_le (by decide)]
  exact (congrArg IndexControl.ofBits BitVec.extractLsb'_append_eq_right).trans (IndexControl.ofBits_bits ic)

@[simp] theorem fieldA13_bytes (i : Bool) (ic : IndexControl) (a : Off) :
    fieldA13 (absByte i ic a) (lowByte13 a) = a := by
  rw [fieldA13, absByte, BitVec.extractLsb'_append_eq_right]
  exact BitVec.extractLsb'_append_extractLsb'

@[simp] theorem absByte_fields (b1 b2 : Byte) : absByte (fieldI b1) (fieldIc b1) (fieldA13 b1 b2) = b1 := by
  have hhigh : b1.extractLsb' 7 1 ++ b1.extractLsb' 5 2 = b1.extractLsb' 5 3 :=
    BitVec.extractLsb'_append_extractLsb'_eq_extractLsb' rfl
  rw [absByte, fieldIc, fieldA13, BitVec.extractLsb'_append_eq_left, ofBool_fieldI, IndexControl.bits_ofBits, hhigh]
  exact BitVec.extractLsb'_append_extractLsb'

@[simp] theorem lowByte13_fieldA13 (b1 b2 : Byte) : lowByte13 (fieldA13 b1 b2) = b2 :=
  BitVec.extractLsb'_append_eq_right

@[simp] theorem fieldI_branchByte (i : Bool) (a : Addr) : fieldI (branchByte i a) = i := fieldI_append i _

@[simp] theorem fieldA15_bytes (i : Bool) (a : Addr) : fieldA15 (branchByte i a) (lowByte15 a) = a := by
  rw [fieldA15, branchByte, BitVec.extractLsb'_append_eq_right]
  exact BitVec.extractLsb'_append_extractLsb'

@[simp] theorem branchByte_fields (b1 b2 : Byte) : branchByte (fieldI b1) (fieldA15 b1 b2) = b1 := by
  rw [branchByte, fieldA15, BitVec.extractLsb'_append_eq_left, ofBool_fieldI]
  exact BitVec.extractLsb'_append_extractLsb'

@[simp] theorem lowByte15_fieldA15 (b1 b2 : Byte) : lowByte15 (fieldA15 b1 b2) = b2 :=
  BitVec.extractLsb'_append_eq_right

/-! ## Complete instructions (30_encoding.md R111) -/

/-- The bytes of one instruction: as many as the first of them announces. -/
inductive Complete : List Byte → Prop
  | one {b0 : Byte} (h : instrLength b0 = 1) : Complete [b0]
  | two {b0 : Byte} (b1 : Byte) (h : instrLength b0 = 2) : Complete [b0, b1]
  | three {b0 : Byte} (b1 b2 : Byte) (h : instrLength b0 = 3) : Complete [b0, b1, b2]

theorem instrLength_cases (b0 : Byte) : instrLength b0 = 1 ∨ instrLength b0 = 2 ∨ instrLength b0 = 3 := by
  revert b0; decide

theorem complete_of_length {b0 : Byte} {tail : List Byte} (h : (b0 :: tail).length = instrLength b0) :
    Complete (b0 :: tail) := by
  rcases instrLength_cases b0 with hl | hl | hl
  · obtain rfl := List.length_eq_zero_iff.mp (Nat.succ.inj (h.trans hl))
    exact .one hl
  · obtain ⟨b1, rfl⟩ := List.length_eq_one_iff.mp (Nat.succ.inj (h.trans hl))
    exact .two b1 hl
  · obtain ⟨b1, b2, rfl⟩ := List.length_eq_two.mp (Nat.succ.inj (h.trans hl))
    exact .three b1 b2 hl

theorem Complete.exists_cons {bs : List Byte} (h : Complete bs) : ∃ b0 tail, bs = b0 :: tail := by
  cases h with
  | one | two | three => exact ⟨_, _, rfl⟩

theorem Complete.length_eq {b0 : Byte} {tail : List Byte} (h : Complete (b0 :: tail)) :
    (b0 :: tail).length = instrLength b0 := by
  cases h with
  | one h | two _ h | three _ _ h => exact h.symm

/-- A list starts with the complete bytes of at most one instruction. -/
theorem Complete.eq_take {bs tail : List Byte} {b0 : Byte} (h : Complete bs) (hp : bs <+: b0 :: tail) :
    bs = (b0 :: tail).take (instrLength b0) := by
  cases bs with
  | nil => nomatch h
  | cons c cs =>
    obtain ⟨rfl, -⟩ := List.cons_prefix_cons.mp hp
    rw [← h.length_eq]
    exact List.prefix_iff_eq_take.mp hp

/-- The lemmas of `Laws.EncodeLength`, gathered over the constructors. -/
theorem encodeLength (i : Instr) : Laws.EncodeLength.Statement i := by
  open Laws.EncodeLength in
  exact Instr.casesOn i lodz lodi lodr loda strz strr stra addz addi addr adda subz subi subr suba dar andz andi
    andr anda iorz iori iorr iora eorz eori eorr eora comz comi comr coma rrl rrr lpsu lpsl spsu spsl ppsu ppsl
    cpsu cpsl tpsu tpsl bctr bcta bcfr bcfa brnr brna birr bira bdrr bdra zbrr bxa bstr bsta bsfr bsfa bsnr
    bsna zbsr bsxa retc rete redd redc rede wrtd wrtc wrte nop tmi halt indeterminate00 unassigned10
    unassigned11 unassigned90 unassigned91 unassignedB6 unassignedB7 unassignedC4 unassignedC5 unassignedC6
    unassignedC7

theorem complete_encode (i : Instr) : Complete (encode i) := by
  obtain ⟨b0, tail, he, hl⟩ := encodeLength i
  rw [he] at hl ⊢
  exact complete_of_length hl

/-! ## The decoder takes complete bytes off the head of a list -/

/-- The instruction in complete bytes, with zeros for the bytes that it does not have. -/
def decodeHead (bs : List Byte) : Instr := decodeBytes (bs.getD 0 0) (bs.getD 1 0) (bs.getD 2 0)

theorem decode_append {bs : List Byte} (h : Complete bs) (rest : List Byte) :
    decode (bs ++ rest) = .ok (decodeHead bs, rest) := by
  cases h with
  | one h | two _ h | three _ _ h => simp [decode, decodeHead, h]

theorem exists_complete_of_decode {bs : List Byte} {i : Instr} {rest : List Byte}
    (h : decode bs = .ok (i, rest)) : ∃ pre, Complete pre ∧ bs = pre ++ rest ∧ i = decodeHead pre := by
  unfold decode at h
  split at h
  · cases h
  · split at h
    · next hl => cases h; exact ⟨_, .one hl, rfl, rfl⟩
    · next hl => cases h; exact ⟨_, .two _ hl, rfl, rfl⟩
    · next hl => cases h; exact ⟨_, .three _ _ hl, rfl, rfl⟩
    · cases h

theorem complete_of_decode {bs : List Byte} {i : Instr} (h : decode bs = .ok (i, [])) :
    Complete bs ∧ i = decodeHead bs := by
  obtain ⟨pre, hc, rfl, hi⟩ := exists_complete_of_decode h
  rw [List.append_nil]; exact ⟨hc, hi⟩

/-! ## O9: decoding what is encoded

One lemma for each format with operand bytes: where the decoder reads the format's fields, it reads back what the
encoder put there. -/

theorem decodeHead_imm {b0 : Byte} {f : Byte → Instr} (h : ∀ b1, decodeBytes b0 b1 0 = f b1) (v : Byte) :
    decodeHead [b0, v] = f v := h v

theorem decodeHead_rel {b0 : Byte} {f : Bool → BitVec 7 → Instr}
    (h : ∀ b1, decodeBytes b0 b1 0 = f (fieldI b1) (fieldD b1)) (i : Bool) (d : BitVec 7) :
    decodeHead [b0, relByte i d] = f i d :=
  (h (relByte i d)).trans (by rw [fieldI_relByte, fieldD_relByte])

theorem decodeHead_abs {b0 : Byte} {f : Bool → IndexControl → Off → Instr}
    (h : ∀ b1 b2, decodeBytes b0 b1 b2 = f (fieldI b1) (fieldIc b1) (fieldA13 b1 b2)) (i : Bool)
    (ic : IndexControl) (a : Off) : decodeHead [b0, absByte i ic a, lowByte13 a] = f i ic a :=
  (h (absByte i ic a) (lowByte13 a)).trans (by rw [fieldI_absByte, fieldIc_absByte, fieldA13_bytes])

theorem decodeHead_branch {b0 : Byte} {f : Bool → Addr → Instr}
    (h : ∀ b1 b2, decodeBytes b0 b1 b2 = f (fieldI b1) (fieldA15 b1 b2)) (i : Bool) (a : Addr) :
    decodeHead [b0, branchByte i a, lowByte15 a] = f i a :=
  (h (branchByte i a) (lowByte15 a)).trans (by rw [fieldI_branchByte, fieldA15_bytes])

/-- Format by format; `wellFormed` takes out the rows whose code is another instruction's (30_encoding.md R137 to
R141). -/
theorem decodeHead_encode {i : Instr} (h : i.wellFormed = true) : decodeHead (encode i) = i := by
  cases i with
  | addz r | subz r | iorz r | eorz r | comz r | dar r | rrl r | rrr r | redd r | redc r | wrtd r | wrtc r =>
    cases r <;> rfl
  | lodz r | strz r | andz r =>
    cases r
    case r0 => cases h
    all_goals rfl
  | retc v | rete v =>
    obtain ⟨r, rfl⟩ := exists_bits v
    cases r <;> rfl
  | lodi r v | addi r v | subi r v | andi r v | iori r v | eori r v | comi r v | rede r v | wrte r v | tmi r v =>
    exact decodeHead_imm (fun _ => by cases r <;> rfl) v
  | ppsu v | ppsl v | cpsu v | cpsl v | tpsu v | tpsl v => exact decodeHead_imm (fun _ => rfl) v
  | lodr r i d | strr r i d | addr r i d | subr r i d | andr r i d | iorr r i d | eorr r i d | comr r i d
  | brnr r i d | birr r i d | bdrr r i d | bsnr r i d => exact decodeHead_rel (fun _ => by cases r <;> rfl) i d
  | bctr v i d | bstr v i d =>
    obtain ⟨r, rfl⟩ := exists_bits v
    exact decodeHead_rel (fun _ => by cases r <;> rfl) i d
  | bcfr v i d | bsfr v i d =>
    obtain ⟨r, rfl⟩ := exists_bits v
    refine decodeHead_rel (fun _ => ?_) i d
    cases r
    case r3 => cases h
    all_goals rfl
  | zbrr i d | zbsr i d => exact decodeHead_rel (fun _ => rfl) i d
  | loda r i ic a | stra r i ic a | adda r i ic a | suba r i ic a | anda r i ic a | iora r i ic a | eora r i ic a
  | coma r i ic a => exact decodeHead_abs (fun _ _ => by cases r <;> rfl) i ic a
  | brna r i a | bira r i a | bdra r i a | bsna r i a =>
    exact decodeHead_branch (fun _ _ => by cases r <;> rfl) i a
  | bcta v i a | bsta v i a =>
    obtain ⟨r, rfl⟩ := exists_bits v
    exact decodeHead_branch (fun _ _ => by cases r <;> rfl) i a
  | bcfa v i a | bsfa v i a =>
    obtain ⟨r, rfl⟩ := exists_bits v
    refine decodeHead_branch (fun _ _ => ?_) i a
    cases r
    case r3 => cases h
    all_goals rfl
  | bxa i a | bsxa i a => exact decodeHead_branch (fun _ _ => rfl) i a
  | lpsu | lpsl | spsu | spsl | nop | halt | indeterminate00 | unassigned10 | unassigned11 | unassigned90
  | unassigned91 | unassignedB6 | unassignedB7 | unassignedC4 | unassignedC5 | unassignedC6 | unassignedC7 => rfl

/-- Settles O9: the encoding is complete, and its bytes decode to the instruction. -/
theorem decodeOfEncode : Obligations.DecodeOfEncode := fun i rest h => by
  rw [decode_append (complete_encode i), decodeHead_encode h]

/-! ## O10: encoding what is decoded

Whatever the three bytes are, the encoding of what they decode to is a first part of them; its length is the one
the first byte announces. -/

theorem rel_prefix (b0 b1 b2 : Byte) : [b0, relByte (fieldI b1) (fieldD b1)] <+: [b0, b1, b2] :=
  ⟨[b2], by rw [relByte_fields]; rfl⟩

theorem branch_prefix (b0 b1 b2 : Byte) :
    [b0, branchByte (fieldI b1) (fieldA15 b1 b2), lowByte15 (fieldA15 b1 b2)] <+: [b0, b1, b2] :=
  ⟨[], by rw [branchByte_fields, lowByte15_fieldA15]; rfl⟩

/-- Row by row of the operation code: in `case h_n` it is `n - 1`. -/
theorem decodeBytes_spec (b0 b1 b2 : Byte) :
    (decodeBytes b0 b1 b2).wellFormed = true ∧ encode (decodeBytes b0 b1 b2) <+: [b0, b1, b2] := by
  obtain ⟨op, r, rfl⟩ := exists_opByte b0
  simp only [decodeBytes, opcode_opByte, fieldR_opByte, fieldV_opByte]
  split
  -- the rows that the register field splits (R137, R141, R142): one byte, two bytes, TPSU and TPSL beside two
  -- unassigned codes, the false forms beside ZBRR, ZBSR, BXA and BSXA
  case h_1 | h_5 | h_17 | h_37 | h_49 | h_50 => cases r <;> exact ⟨rfl, [b1, b2], rfl⟩
  case h_30 => cases r <;> exact ⟨rfl, [b2], rfl⟩
  case h_46 =>
    cases r
    case r0 | r1 => exact ⟨rfl, [b2], rfl⟩
    case r2 | r3 => exact ⟨rfl, [b1, b2], rfl⟩
  case h_39 | h_47 => cases r <;> exact ⟨rfl, rel_prefix _ b1 b2⟩
  case h_40 | h_48 => cases r <;> exact ⟨rfl, branch_prefix _ b1 b2⟩
  -- BDRA, the decoder's last arm
  case h_64 =>
    obtain rfl : op = 63#6 := by simp only [imp_false] at *; bv_omega
    exact ⟨rfl, branch_prefix _ b1 b2⟩
  -- every other row is one instruction, whose bytes are those of its fields
  all_goals exact ⟨rfl, by simp [encode]⟩

theorem Complete.isPrefix {bs : List Byte} (h : Complete bs) :
    bs <+: [bs.getD 0 0, bs.getD 1 0, bs.getD 2 0] := by
  cases h with
  | one | two | three => simp

theorem encode_decodeHead {bs : List Byte} (h : Complete bs) : encode (decodeHead bs) = bs := by
  obtain ⟨-, hp⟩ := decodeBytes_spec (bs.getD 0 0) (bs.getD 1 0) (bs.getD 2 0)
  exact ((complete_encode _).eq_take hp).trans (h.eq_take h.isPrefix).symm

theorem wellFormed_decodeHead (bs : List Byte) : (decodeHead bs).wellFormed = true := (decodeBytes_spec _ _ _).1

/-- Settles O10. -/
theorem encodeOfDecode : Obligations.EncodeOfDecode := fun bs _ h => by
  obtain ⟨hc, rfl⟩ := complete_of_decode h
  exact ⟨wellFormed_decodeHead bs, encode_decodeHead hc⟩

/-- Settles O11, word by word. -/
theorem decodedWords : Obligations.DecodedWords :=
  ⟨rfl, rfl, rfl, rfl, rfl, rfl, rfl, rfl, rfl, rfl⟩

end Sys2Proof
end

section
namespace Sys2Proof.Machine

/-! ## Effective addresses as numbers (30_encoding.md R123 to R130) -/

theorem toNat_addInPage (a : Addr) (off : Off) :
    (addInPage a off).toNat = 8192 * (a.toNat / 8192) + (a.toNat % 8192 + off.toNat) % 8192 := by
  rw [addInPage, toNat_inPage, toNat_pageOf, BitVec.toNat_add, toNat_offOf]

/-- A displacement with its sign taken, as an offset in the page (30_encoding.md R119). -/
theorem toNat_signExtend_disp (d : BitVec 7) : ((d.signExtend 13).toNat : Int) = d.toInt % 8192 := by
  have hsign : (d.signExtend 13).toInt = d.toInt := BitVec.toInt_signExtend_of_le (by decide)
  rw [← hsign, BitVec.toInt_eq_toNat_cond]
  split <;> omega

/-- Settles O18: adding the offset wraps as adding the displacement does. -/
theorem relativeBase : Obligations.RelativeBase := fun s d => by
  have hdisp := toNat_signExtend_disp d
  rw [relBase, toNat_addInPage]
  omega

theorem toNat_zeroRelBase (d : BitVec 7) : ((inPage 0#2 (d.signExtend 13)).toNat : Int) = d.toInt % 8192 := by
  rw [toNat_inPage, ← toNat_signExtend_disp]; simp

/-- Settles O20: each form is `resolve` at the address formed. -/
theorem branchEffectiveAddresses : Obligations.BranchEffectiveAddresses := fun _ d _ =>
  ⟨rfl, rfl, rfl, rfl, inPage 0#2 (d.signExtend 13), toNat_zeroRelBase d, rfl, rfl⟩

theorem toNat_currentPage (s : State) (a : Off) :
    (inPage (pageOf s.iar) a).toNat = 8192 * (s.iar.toNat / 8192) + a.toNat := by
  rw [toNat_inPage, toNat_pageOf]

/-- Settles O21. -/
theorem absoluteAddress : Obligations.AbsoluteAddress := fun s _ a =>
  ⟨inPage (pageOf s.iar) a, toNat_currentPage s a, rfl, rfl, rfl⟩

theorem absEA_of_indexed {ic : IndexControl} (h : ic ≠ .plain) (x : Reg) (i : Bool) (a : Off) (s : State) :
    absEA x i ic a s =
      (addInPage (resolve i (inPage (pageOf s.iar) a) (stepIndex ic x s)).1
        ((readReg x (stepIndex ic x s)).zeroExtend 13),
        (resolve i (inPage (pageOf s.iar) a) (stepIndex ic x s)).2) := by
  cases ic with
  | plain => exact absurd rfl h
  | autoInc | autoDec | indexed => rfl

theorem operandReg_of_indexed {ic : IndexControl} (h : ic ≠ .plain) (x : Reg) : operandReg x ic = .r0 := by
  cases ic with
  | plain => exact absurd rfl h
  | autoInc | autoDec | indexed => rfl

theorem readReg_stepIndex (ic : IndexControl) (x : Reg) (s : State) :
    readReg x (stepIndex ic x s) = steppedValue ic (readReg x s) := by
  rw [readReg_eq, regOf_stepIndex, getPhys_stepIndex, if_pos rfl, readReg_eq]

/-- Settles O22: the register is read after its step, and added in the page of the address resolved. -/
theorem indexedAddress : Obligations.IndexedAddress := fun s x i ic a h => by
  refine ⟨inPage (pageOf s.iar) a, toNat_currentPage s a, ⟨?_, ?_⟩, ?_, operandReg_of_indexed h x⟩
  · rw [absEA_of_indexed h, readReg_stepIndex, toNat_addInPage, BitVec.toNat_setWidth_of_le (by decide)]; rfl
  · rw [absEA_of_indexed h]; rfl
  · rw [← regOf_stepIndex ic x x, ← readReg_eq, readReg_stepIndex]

theorem toNat_indexedTarget (carry : Bool) (b : Addr) (x : Byte) :
    (indexedTarget carry b x).toNat =
      if carry = true then (b.toNat + x.toNat) % 32768
      else 8192 * (b.toNat / 8192) + (b.toNat % 8192 + x.toNat) % 8192 := by
  cases carry
  case true => simp [indexedTarget]
  case false => simp [indexedTarget, toNat_addInPage]

/-- Settles O23: the target of `indexedTarget` at the address resolved. -/
theorem indexedBranchAddress : Obligations.IndexedBranchAddress := fun _ _ _ =>
  ⟨rfl, toNat_indexedTarget _ _ _⟩

/-! ## O53: the unassigned codes (30_encoding.md R141, R142) -/

/-- Settles O53, code by code. -/
theorem unassignedCodesStop : Obligations.UnassignedCodesStop := fun s => by
  refine ⟨rfl, ?_⟩
  simp only [List.forall_mem_cons]
  exact ⟨⟨rfl, rfl⟩, ⟨rfl, rfl⟩, ⟨rfl, rfl⟩, ⟨rfl, rfl⟩, ⟨rfl, rfl⟩, ⟨rfl, rfl⟩, ⟨rfl, rfl⟩, ⟨rfl, rfl⟩,
    ⟨rfl, rfl⟩, ⟨rfl, rfl⟩, List.forall_mem_nil _⟩

/-! ## O7: the step runs the decoded instruction

The fetch of stored code (30_encoding.md R120), with no byte latched and with one (70_reset_and_hazards.md R323),
and the boundary that lets it happen. -/

theorem CodeAt.congr {s t : State} {a : Addr} {bs : List Byte} (h : CodeAt s a bs) (hp : t.params = s.params)
    (hm : t.mem = s.mem) : CodeAt t a bs := codeAt_congr hp hm bs a h

/-- The state after the bytes `bs` have been read at IAR. -/
def readAhead (bs : List Byte) (s : State) : State :=
  { s with iar := advance bs.length s.iar, history := fetchLog s.iar bs s.history }

theorem fetchByte_codeAt {s : State} {b : Byte} {bs : List Byte} (h : CodeAt s s.iar (b :: bs)) :
    fetchByte s = (b, readAhead [b] s) ∧ CodeAt (readAhead [b] s) (inc13 s.iar) bs := by
  obtain ⟨hkind, hbyte, hrest⟩ := h
  refine ⟨?_, hrest.congr rfl rfl⟩
  rw [fetchByte_stored hkind, hbyte]; rfl

/-- After the first byte the others are read one by one, and no more of them than it announces. -/
theorem fetchInstr_codeAt {s t : State} {b0 : Byte} {bs : List Byte} (hc : Complete (b0 :: bs))
    (hfirst : fetchFirst s = (b0, t)) (h : CodeAt t t.iar bs) :
    fetchInstr s = (decodeHead (b0 :: bs), readAhead bs t) := by
  cases hc with
  | one hl => simp only [fetchInstr, hfirst, hl]; rfl
  | two b1 hl =>
    obtain ⟨h1, -⟩ := fetchByte_codeAt h
    simp only [fetchInstr, hfirst, hl, h1]; rfl
  | three b1 b2 hl =>
    obtain ⟨h1, hnext⟩ := fetchByte_codeAt h
    obtain ⟨h2, -⟩ := fetchByte_codeAt (s := readAhead [b1] t) hnext
    simp only [fetchInstr, hfirst, hl, h1, h2]; rfl

theorem fetchInstr_unlatched {s : State} {bs : List Byte} (hc : Complete bs) (hp : s.prefetch = none)
    (h : CodeAt s s.iar bs) :
    fetchInstr s = (decodeHead bs, { readAhead bs s with prefetch := none }) := by
  obtain ⟨b, rest, rfl⟩ := hc.exists_cons
  obtain ⟨hbyte, hrest⟩ := fetchByte_codeAt h
  have hfirst : fetchFirst s = (b, readAhead [b] s) := by rw [fetchFirst, hp]; exact hbyte
  rw [fetchInstr_codeAt hc hfirst hrest, ← hp]; rfl

theorem fetchInstr_latched {s : State} {b : Byte} {rest : List Byte} (hc : Complete (b :: rest))
    (hp : s.prefetch = some b) (h : CodeAt s (inc13 s.iar) rest) :
    fetchInstr s =
      (decodeHead (b :: rest), readAhead rest { s with iar := inc13 s.iar, prefetch := none }) := by
  have hfirst : fetchFirst s = (b, { s with iar := inc13 s.iar, prefetch := none }) := by rw [fetchFirst, hp]
  exact fetchInstr_codeAt hc hfirst (h.congr rfl rfl)

/-- The state in RUN with the pin sample consumed. -/
def sampled (s : State) : State := { s with run := .running, env := (samplePins s).2.env }

theorem setRun_samplePins (s : State) : setRun .running (samplePins s).2 = sampled s := by
  unfold sampled samplePins; split <;> rfl

/-- The boundaries that run the next instruction (60_exceptions.md R289, R295 item 3). -/
theorem boundary_runNext {s : State} (hr : (samplePins s).1.reset = false) (hp : (samplePins s).1.pause = false)
    (hrun : s.run = .running ∧ ((samplePins s).1.intreq = false ∨ s.ii = true) ∨
      s.run = .pauseWait ∧ s.intWaiting = false) : boundary s = .runNext (sampled s) := by
  rw [← setRun_samplePins]
  rcases hrun with ⟨hrun, hreq⟩ | ⟨hrun, hwait⟩
  · have hrefuse : accepts (samplePins s).1.intreq (samplePins s).2 = false := by
      rcases hreq with h | h <;> simp [accepts, h]
    have hset : setRun .running (samplePins s).2 = (samplePins s).2 := by
      rw [← hrun, ← samplePins_run]; rfl
    simp [boundary, boundaryWith, hr, hp, hrun, hrefuse, hset]
  · simp [boundary, boundaryWith, leavePause, hr, hp, hrun, hwait]

/-- Settles O7: the boundary lets the instruction run, and the fetch takes its bytes. -/
theorem stepRunsDecodedInstruction : Obligations.StepRunsDecodedInstruction := by
  intro s i bs hd _ hr hp hrun fetched
  obtain ⟨hc, rfl⟩ := complete_of_decode hd
  have hstep : step s = runInstruction (sampled s) := by rw [step, boundary_runNext hr hp hrun]
  refine ⟨fun hnone h => ?_, ?_⟩
  · rw [hstep, runInstruction, fetchInstr_unlatched (s := sampled s) hc hnone (h.congr rfl rfl)]; rfl
  · rintro b rest rfl hlatch h
    rw [hstep, runInstruction, fetchInstr_latched (s := sampled s) hc hlatch (h.congr rfl rfl)]; rfl

end Sys2Proof.Machine
end

section
namespace Sys2Proof.Machine

/-! ## Access to an operand (30_encoding.md R124, R127, R128)

Forming an effective address and reading the byte there are bus operations after at most one index step. What an
instruction then does with the operand adds to what the access has changed. -/

/-- From `s` to `u` only registers `ws` have been written and bus operations done. -/
structure Accessed (ws : List PhysReg) (s u : State) : Prop where
  frame : Frame ws 0#8 s u
  iar : u.iar = s.iar
  mem : u.mem = s.mem

theorem BusOnly.accessed {s u : State} (h : BusOnly s u) : Accessed [] s u := ⟨h.frame [] 0#8, h.iar, h.mem⟩

theorem accessed_absEA (x : Reg) (i : Bool) (ic : IndexControl) (a : Off) (s : State) :
    Accessed (steppedRegs x ic s) s (absEA x i ic a s).2 :=
  ⟨frame_absEA x i ic a 0#8 s, (dataKept_absEA x i ic a 0#8 s).iar, (quiet_absEA x i ic a s).mem⟩

/-- An absolute access leaves the index register with its step done. -/
theorem getPhys_absEA (x : Reg) (i : Bool) (ic : IndexControl) (a : Off) (s : State) :
    getPhys (regOf x s) (absEA x i ic a s).2 = steppedValue ic (readReg x s) := by
  rw [(absEA_busOnly x i ic a s).getPhys, getPhys_stepIndex, if_pos rfl, readReg_eq]

section

variable {ws : List PhysReg} {s u : State}

theorem Accessed.psl (h : Accessed ws s u) : u.psl = s.psl := by
  obtain ⟨-, hpsl, -, -, -⟩ := h.frame
  exact pslKept_zero.mp hpsl

theorem Accessed.regOf_eq (h : Accessed ws s u) (r : Reg) : regOf r u = regOf r s := by
  rw [regOf, regOf, h.psl]

theorem Accessed.memRead (h : Accessed ws s u) (a : Addr) : Accessed ws s (memRead a u).2 :=
  ⟨h.frame.trans ((busOnly_memRead a u).frame ws 0#8), (memRead_iar a u).trans h.iar,
    (memRead_mem a u).trans h.mem⟩

/-- An operation that may write registers and PSL bits adds its registers to those of the access. -/
theorem Accessed.frame_append (h : Accessed ws s u) {ws' : List PhysReg} {mask : Byte} {t : State}
    (k : Frame ws' mask u t) : Frame (ws' ++ ws) mask s t := by
  obtain ⟨hregs, -, hrest⟩ := h.frame
  have hmask : Frame ws mask s u := ⟨hregs, pslKept_of_eq mask h.psl, hrest⟩
  exact (hmask.mono fun _ => List.mem_append_right ws').trans (k.mono fun _ => List.mem_append_left ws)

end

/-- The step of the index register survives an operation that writes `q` alone. -/
theorem indexStepped_of_regsKept {r : Reg} {ic : IndexControl} {q : PhysReg} {s u t : State}
    (hu : getPhys (regOf r s) u = steppedValue ic (readReg r s)) (hk : RegsKept [q] u t) :
    IndexStepped r ic q s t := fun hne =>
  (hk (regOf r s) (List.mem_singleton.not.mpr hne)).trans hu

/-! ## The loads (40_load_store.md R160 to R164) -/

/-- A load after the access to its operand. -/
theorem Accessed.loaded {ws : List PhysReg} {s u : State} (h : Accessed ws s u) (r : Reg) (v : Byte) :
    Loaded (regOf r s) v (regOf r s :: ws) u s (loadReg r v u) := by
  obtain ⟨hreg, hcc, hiar, hframe, hbus⟩ := loadReg_spec r v u
  rw [h.regOf_eq] at hreg hframe
  exact ⟨hreg, hcc, hiar.trans h.iar, h.frame_append hframe, hbus⟩

theorem loaded_loadReg (r : Reg) (v : Byte) (s : State) :
    Loaded (regOf r s) v [regOf r s] s s (loadReg r v s) := loadReg_spec r v s

/-- Settles O28: each of the three is a `loadReg`. -/
theorem registerLoads : Obligations.RegisterLoads := fun s r v =>
  ⟨⟨_, rfl, loaded_loadReg .r0 (readReg r s) s⟩, ⟨_, rfl, loaded_loadReg r v s⟩,
    ⟨_, rfl, loaded_loadReg r s.r0 s⟩⟩

/-- Format R with `loadReg`: the operand is reached by bus operations alone. -/
theorem loaded_withRel (r : Reg) (i : Bool) (d : BitVec 7) (s : State) :
    let m := memRead (relEA i d s).1 (relEA i d s).2
    Loaded (regOf r s) m.1 [regOf r s] m.2 s (withRel i d (loadReg r) s) :=
  ((busOnly_relEA i d s).accessed.memRead _).loaded r _

/-- Format A with `loadReg`: the access may step the index register, and the load writes the operand register. -/
theorem loaded_withAbs (r : Reg) (i : Bool) (ic : IndexControl) (a : Off) (s : State) :
    let m := memRead (absEA r i ic a s).1 (absEA r i ic a s).2
    let q := regOf (operandReg r ic) s
    Loaded q m.1 (q :: steppedRegs r ic s) m.2 s (withAbs r i ic a loadReg s) ∧
      IndexStepped r ic q s (withAbs r i ic a loadReg s) := by
  intro m q
  have hread : Accessed (steppedRegs r ic s) s m.2 := (accessed_absEA r i ic a s).memRead _
  have hindex : getPhys (regOf r s) m.2 = steppedValue ic (readReg r s) :=
    (memRead_getPhys _ _ _).trans (getPhys_absEA r i ic a s)
  obtain ⟨-, -, -, ⟨hregs, -⟩, -⟩ := loadReg_spec (operandReg r ic) m.1 m.2
  rw [hread.regOf_eq] at hregs
  exact ⟨hread.loaded _ _, indexStepped_of_regsKept hindex hregs⟩

/-- Settles O29, format by format. -/
theorem memoryLoads : Obligations.MemoryLoads := fun s r i d ic a =>
  ⟨⟨_, rfl, loaded_withRel r i d s⟩, ⟨_, rfl, loaded_withAbs r i ic a s⟩⟩

/-! ## The stores (40_load_store.md R165, R166) -/

/-- One byte has been written at `a` where RAM stands; of the rest only registers `ws`, the history and the
environment may differ. -/
structure Stored (a : Addr) (v : Byte) (ws : List PhysReg) (s t : State) : Prop where
  byte : t.mem.read a = if kindAt s.params.memMap a = .ram then v else s.mem.read a
  others : BytesKeptBut a s t
  regs : RegsKept ws s t
  psl : t.psl = s.psl
  psu : PsuKept s t
  control : ControlKept s t
  iar : t.iar = s.iar

/-- A bus write after the access that formed its address. -/
theorem Accessed.stored {ws : List PhysReg} {s u : State} (h : Accessed ws s u) (hm : s.mem.wf = true)
    (a : Addr) (v : Byte) : Stored a v ws s (memWrite a v u) := by
  obtain ⟨hregs, -, hpsu, hcontrol, -⟩ := h.frame
  obtain ⟨hparams, -, -⟩ := hcontrol.latches
  have hread (b : Addr) : (memWrite a v u).mem.read b =
      if b = a ∧ kindAt s.params.memMap a = .ram then v else s.mem.read b := by
    rw [← h.mem] at hm
    rw [← hparams, ← h.mem]
    exact memStore_read a b v u hm
  exact {
    byte := by rw [hread]; simp only [true_and]
    others := fun b hb => by rw [hread, if_neg fun hba => hb hba.1]
    regs := fun q hq => (getPhys_memWrite q a v u).trans (hregs q hq)
    psl := h.psl
    psu := hpsu
    control := hcontrol
    iar := h.iar }

/-- Settles O30: the address is formed as in a load, and the last bus operation is the write. -/
theorem stores : Obligations.Stores := by
  intro s r i d ic a hm
  have hrel := (busOnly_relEA i d s).accessed.stored hm (relEA i d s).1 (readReg r s)
  have habs := (accessed_absEA r i ic a s).stored hm (absEA r i ic a s).1
    (readReg (operandReg r ic) (absEA r i ic a s).2)
  have hindex := getPhys_absEA r i ic a s
  rw [← getPhys_memWrite _ (absEA r i ic a s).1 (readReg (operandReg r ic) (absEA r i ic a s).2)] at hindex
  exact ⟨⟨_, rfl, hrel.byte, hrel.others, hrel.regs, hrel.psl, hrel.psu, hrel.control, hrel.iar, rfl, rfl⟩,
    ⟨_, rfl, habs.byte, habs.others, habs.regs, hindex, habs.psl, habs.psu, habs.control, habs.iar, rfl, rfl⟩⟩

end Sys2Proof.Machine
end

section
namespace Sys2Proof.Machine

/-! ## The adder as numbers (41_arithmetic.md R170) -/

section

variable (a b : Byte) (cin : Bool)

theorem toNat_adder_res : (adder a b cin).res.toNat = (a.toNat + b.toNat + cin.toNat) % 256 :=
  BitVec.toNat_ofNat _ _

theorem adder_c_iff : (adder a b cin).c = true ↔ 256 ≤ a.toNat + b.toNat + cin.toNat := decide_eq_true_iff

theorem adder_idc_iff : (adder a b cin).idc = true ↔ 16 ≤ a.toNat % 16 + b.toNat % 16 + cin.toNat :=
  decide_eq_true_iff

theorem adder_ovf_iff :
    (adder a b cin).ovf = true ↔ a.msb = b.msb ∧ (adder a b cin).res.msb ≠ a.msb := by
  show (a.msb == b.msb && (adder a b cin).res.msb != a.msb) = true ↔ _
  rw [Bool.and_eq_true, beq_iff_eq, bne_iff_ne]

/-- The sign rule for OVF says that the signed sum has left the range of a byte. -/
theorem adder_ovf_iff_signed :
    (adder a b cin).ovf = true ↔
      a.toInt + b.toInt + cin.toNat < -128 ∨ 127 < a.toInt + b.toInt + cin.toNat := by
  have hcin : cin.toNat ≤ 1 := Bool.toNat_le cin
  have hres := toNat_adder_res a b cin
  rw [adder_ovf_iff, BitVec.toInt_eq_toNat_cond, BitVec.toInt_eq_toNat_cond]
  simp only [BitVec.msb_eq_decide, ne_eq, decide_eq_decide]
  split <;> split <;> omega

end

/-- The carry that comes in: C where WC = 1, else none. -/
theorem toNat_carryIn (p : Byte) :
    (Psl.wc p && Psl.c p).toNat = if Psl.wc p = true then (Psl.c p).toNat else 0 := by
  cases Psl.wc p <;> rfl

/-- Settles O14: the numbers of the adder, and the flags as `pslAfterAlu_spec` places them. -/
theorem additionRule : Obligations.AdditionRule := by
  intro p a b cin sum x
  obtain ⟨hcc, hc, hidc, hovf, -⟩ := pslAfterAlu_spec p x
  have hcin : (Psl.wc p && Psl.c p).toNat = cin := toNat_carryIn p
  have hres : x.res.toNat = (a.toNat + b.toNat + (Psl.wc p && Psl.c p).toNat) % 256 := toNat_adder_res a b _
  have hcarry : x.c = true ↔ _ := adder_c_iff a b (Psl.wc p && Psl.c p)
  have hhalf : x.idc = true ↔ _ := adder_idc_iff a b (Psl.wc p && Psl.c p)
  have hsign : x.ovf = true ↔ _ := adder_ovf_iff a b (Psl.wc p && Psl.c p)
  rw [hcin] at hres hcarry hhalf
  simp only [BitVec.msb_eq_getLsbD_last] at hsign
  exact ⟨hres, hcarry, hhalf, hsign, hcc, hc, hidc, hovf⟩

/-! ## Subtraction: the adder on the one's complement (41_arithmetic.md R171) -/

theorem toInt_not_byte (b : Byte) : (~~~b).toInt = -b.toInt - 1 := by
  have hb := b.isLt
  rw [BitVec.toInt_eq_toNat_cond, BitVec.toInt_eq_toNat_cond, BitVec.toNat_not]
  split <;> split <;> omega

/-- What is borrowed: 1 where WC = 1 and C = 0. The carry that comes in is 1 less that. -/
theorem toNat_carryIn_sub (p : Byte) :
    (!Psl.wc p || Psl.c p).toNat + (if Psl.wc p = true ∧ Psl.c p = false then 1 else 0) = 1 := by
  cases Psl.wc p <;> cases Psl.c p <;> rfl

/-- Settles O15: complement and carry-in together are minus b and minus the borrow. -/
theorem subtractionRule : Obligations.SubtractionRule := by
  intro p a b borrow diff x
  obtain ⟨hcc, hc, hidc, hovf, -⟩ := pslAfterAlu_spec p x
  have hcin : (!Psl.wc p || Psl.c p).toNat + borrow = 1 := toNat_carryIn_sub p
  have hb : b.toNat < 256 := b.isLt
  have hnot := BitVec.toNat_not (x := b)
  have hdiff : a.toInt + (~~~b).toInt + (!Psl.wc p || Psl.c p).toNat = diff := by
    rw [toInt_not_byte]; omega
  have hres : x.res.toNat = _ := toNat_adder_res a (~~~b) (!Psl.wc p || Psl.c p)
  have hcarry : x.c = true ↔ _ := adder_c_iff a (~~~b) (!Psl.wc p || Psl.c p)
  have hhalf : x.idc = true ↔ _ := adder_idc_iff a (~~~b) (!Psl.wc p || Psl.c p)
  have hsigned : x.ovf = true ↔ _ := adder_ovf_iff_signed a (~~~b) (!Psl.wc p || Psl.c p)
  rw [hdiff] at hsigned
  refine ⟨?_, ?_, ?_, hsigned, hcc, hc, hidc, hovf⟩
  · omega
  · rw [hcarry]; omega
  · rw [hhalf]; omega

/-! ## Decimal adjustment (41_arithmetic.md R180) -/

/-- A half of a byte as DAR leaves it: ten added, modulo 16, where its carry flag is 0. -/
def adjustedHalf (carry : Bool) (h : Nat) : Nat := (h + if carry = true then 0 else 10) % 16

theorem toNat_adjustHalf (carry : Bool) (h : BitVec 4) :
    (if carry then h else h + 10).toNat = adjustedHalf carry h.toNat := by
  cases carry
  · exact BitVec.toNat_add h 10
  · exact (Nat.mod_eq_of_lt h.isLt).symm

theorem toNat_append_halves (h l : BitVec 4) : (h ++ l : Byte).toNat = 16 * h.toNat + l.toNat := by
  rw [BitVec.toNat_append, Nat.shiftLeft_eq, Nat.mul_comm, ← Nat.two_pow_add_eq_or_of_lt l.isLt]

theorem toNat_decimalAdjust (p v : Byte) :
    (decimalAdjust p v).toNat =
      16 * adjustedHalf (Psl.c p) (v.toNat / 16) + adjustedHalf (Psl.idc p) (v.toNat % 16) := by
  have hhi : (v.extractLsb' 4 4).toNat = v.toNat / 16 := by
    rw [BitVec.extractLsb'_toNat, Nat.shiftRight_eq_div_pow]; omega
  have hlo : (v.extractLsb' 0 4).toNat = v.toNat % 16 := BitVec.extractLsb'_toNat ..
  rw [decimalAdjust, toNat_append_halves, toNat_adjustHalf, toNat_adjustHalf, hhi, hlo]

/-- Settles O16: a register write, a draw and CC written. -/
theorem decimalAdjustInstruction : Obligations.DecimalAdjustInstruction := by
  intro s r v hi lo
  refine ⟨_, rfl, ?_, by simp, ?_, by simp, by simp⟩
  · rw [getPhys_setCC, getPhys_nextDraw, getPhys_writeReg, if_pos rfl]
    exact toNat_decimalAdjust s.psl v
  · exact ((frame_writeReg r _ ccMask s).trans ((busOnly_nextDraw _).frame _ _)).trans (frame_setCC _ _ _)

/-! ## The BCD procedures (41_arithmetic.md R181)

In both procedures the operands of the adder have in each half six more than a sum `u` of two decimal digits: the
six of H'66' in an addition, and in a subtraction 15 - n, which is six more than the digit 9 - n. So the binary
carries are the decimal ones, and the ten that DAR adds takes the six back where a half gave no carry. -/

@[simp] theorem pslAfterAlu_wc (p : Byte) (x : AluResult) : Psl.wc (pslAfterAlu p x) = Psl.wc p :=
  pack_wc _ _ _ _ _ _ _

theorem addCore_of_not_wc {p : Byte} (h : Psl.wc p = false) (a b : Byte) : addCore p a b = adder a b false := by
  rw [addCore, h]; rfl

theorem subCore_of_not_wc {p : Byte} (h : Psl.wc p = false) (a b : Byte) :
    subCore p a b = adder a (~~~b) true := by
  rw [subCore, h]; rfl

theorem toNat_packedDecimal {n : Nat} (h : n < 100) : (packedDecimal n).toNat = 16 * (n / 10) + n % 10 := by
  rw [packedDecimal, BitVec.toNat_ofNat]; omega

/-- A half that holds a decimal sum and six is adjusted to the digit of that sum. -/
theorem adjustedHalf_add_six {carry : Bool} {t : Nat} (ht : t < 20) (h : carry = true ↔ 10 ≤ t) :
    adjustedHalf carry ((t + 6) % 16) = t % 10 := by
  simp only [adjustedHalf, h]
  split <;> omega

/-- The adjusted sum of operands with six too many in each half is the decimal sum. -/
theorem decimalAdjust_adder {a b : Byte} {cin : Bool} {u1 u0 sum : Nat}
    (hhi : a.toNat / 16 + b.toNat / 16 = u1 + 6) (hlo : a.toNat % 16 + b.toNat % 16 = u0 + 6)
    (h1 : u1 ≤ 18) (h0 : u0 ≤ 18) (hsum : 10 * u1 + u0 + cin.toNat = sum) (p : Byte) :
    let y := adder a b cin
    let p' := pslAfterAlu p y
    decimalAdjust p' y.res = packedDecimal (sum % 100) ∧ (Psl.c p' = true ↔ 100 ≤ sum) := by
  intro y p'
  have hcin : cin.toNat ≤ 1 := Bool.toNat_le cin
  have hres : y.res.toNat = _ := toNat_adder_res a b cin
  have hcarry : y.c = true ↔ 10 ≤ u1 + (u0 + cin.toNat) / 10 := by rw [adder_c_iff]; omega
  have hhalf : y.idc = true ↔ 10 ≤ u0 + cin.toNat := by rw [adder_idc_iff]; omega
  have hreshi : y.res.toNat / 16 = (u1 + (u0 + cin.toNat) / 10 + 6) % 16 := by omega
  have hreslo : y.res.toNat % 16 = (u0 + cin.toNat + 6) % 16 := by omega
  obtain ⟨-, hc, hidc, -, -⟩ := pslAfterAlu_spec p y
  refine ⟨BitVec.eq_of_toNat_eq ?_, by rw [hc, hcarry]; omega⟩
  rw [toNat_decimalAdjust, hc, hidc, hreshi, hreslo, adjustedHalf_add_six (by omega) hcarry,
    adjustedHalf_add_six (by omega) hhalf, toNat_packedDecimal (Nat.mod_lt _ (by decide))]
  omega

section

variable {p : Byte} {m n : Nat}

/-- Adding H'66' carries nothing out. -/
theorem toNat_packedDecimal_add_66 (hp : Psl.wc p = false) (hm : m < 100) :
    (addCore p (packedDecimal m) 0x66#8).res.toNat = 16 * (m / 10 + 6) + (m % 10 + 6) := by
  rw [addCore_of_not_wc hp, toNat_adder_res, toNat_packedDecimal hm, BitVec.toNat_ofNat, Bool.toNat_false]
  omega

theorem bcd_addition (hp : Psl.wc p = false) (hm : m < 100) (hn : n < 100) :
    let x := addCore p (packedDecimal m) 0x66#8
    let p1 := pslAfterAlu p x
    let y := addCore p1 x.res (packedDecimal n)
    let p2 := pslAfterAlu p1 y
    decimalAdjust p2 y.res = packedDecimal ((m + n) % 100) ∧ (Psl.c p2 = true ↔ 100 ≤ m + n) := by
  intro x p1
  have hx : x.res.toNat = 16 * (m / 10 + 6) + (m % 10 + 6) := toNat_packedDecimal_add_66 hp hm
  have hn' := toNat_packedDecimal hn
  rw [addCore_of_not_wc ((pslAfterAlu_wc p x).trans hp)]
  exact decimalAdjust_adder (u1 := m / 10 + n / 10) (u0 := m % 10 + n % 10) (by omega) (by omega) (by omega)
    (by omega) (by rw [Bool.toNat_false]; omega) p1

theorem bcd_subtraction (hp : Psl.wc p = false) (hm : m < 100) (hn : n < 100) :
    let y := subCore p (packedDecimal m) (packedDecimal n)
    let p2 := pslAfterAlu p y
    decimalAdjust p2 y.res = packedDecimal ((100 + m - n) % 100) ∧ (Psl.c p2 = true ↔ n ≤ m) := by
  have hm' := toNat_packedDecimal hm
  have hn' := toNat_packedDecimal hn
  have hnot := BitVec.toNat_not (x := packedDecimal n)
  have hborrow : n ≤ m ↔ 100 ≤ 100 + m - n := by omega
  rw [subCore_of_not_wc hp, hborrow]
  exact decimalAdjust_adder (u1 := m / 10 + (9 - n / 10)) (u0 := m % 10 + (9 - n % 10)) (by omega) (by omega)
    (by omega) (by omega) (by rw [Bool.toNat_true]; omega) p

end

/-- Settles O17. -/
theorem bcdProceduresAreDecimal : Obligations.BcdProceduresAreDecimal := fun _ _ _ hp hm hn =>
  ⟨bcd_addition hp hm hn, bcd_subtraction hp hm hn⟩

/-! ## The instructions (41_arithmetic.md R172 to R179)

`addToReg` and `subFromReg` differ in the core alone: what holds of both is said of `aluReg`. -/

/-- `R[r]` combined with `b` by a core of the adder, and the flags it delivers. -/
def aluReg (core : Byte → Byte → Byte → AluResult) (r : Reg) (b : Byte) (s : State) : State :=
  setPsl (pslAfterAlu s.psl (core s.psl (readReg r s) b)) (writeReg r (core s.psl (readReg r s) b).res s)

theorem addToReg_eq_aluReg : addToReg = aluReg addCore := rfl

theorem subFromReg_eq_aluReg : subFromReg = aluReg subCore := rfl

section

variable (core : Byte → Byte → Byte → AluResult)

theorem aluDone_aluReg (r : Reg) (b : Byte) (s : State) :
    AluDone (regOf r s) (core s.psl (readReg r s) b) [regOf r s] s s (aluReg core r b s) :=
  writeAlu_spec r (core s.psl (readReg r s) b) s

/-- The adder after the access to its operand. -/
theorem Accessed.aluDone {ws : List PhysReg} {s u : State} (h : Accessed ws s u) (r : Reg) (b : Byte) :
    AluDone (regOf r s) (core s.psl (readReg r u) b) (regOf r s :: ws) u s (aluReg core r b u) := by
  obtain ⟨hreg, hcc, hc, hidc, hovf, hiar, hframe, hbus⟩ := aluDone_aluReg core r b u
  rw [h.regOf_eq, h.psl] at hreg
  rw [h.regOf_eq] at hframe
  rw [h.psl] at hcc hc hidc hovf
  exact ⟨hreg, hcc, hc, hidc, hovf, hiar.trans h.iar, h.frame_append hframe, hbus⟩

/-- Format R: the operand is reached by bus operations alone. -/
theorem aluDone_withRel (r : Reg) (i : Bool) (d : BitVec 7) (s : State) :
    let m := memRead (relEA i d s).1 (relEA i d s).2
    AluDone (regOf r s) (core s.psl (readReg r s) m.1) [regOf r s] m.2 s (withRel i d (aluReg core r) s) := by
  intro m
  have hbus : BusOnly s m.2 := (busOnly_relEA i d s).trans (busOnly_memRead _ _)
  rw [← hbus.readReg r]
  exact hbus.accessed.aluDone core r m.1

/-- Format A: the access may step the index register, and the operand register is read after the step. -/
theorem aluDone_withAbs (r : Reg) (i : Bool) (ic : IndexControl) (a : Off) (s : State) :
    let ea := absEA r i ic a s
    let m := memRead ea.1 ea.2
    let q := regOf (operandReg r ic) s
    AluDone q (core s.psl (readReg (operandReg r ic) ea.2) m.1) (q :: steppedRegs r ic s) m.2 s
        (withAbs r i ic a (aluReg core) s) ∧
      IndexStepped r ic q s (withAbs r i ic a (aluReg core) s) := by
  intro ea m q
  have hread : Accessed (steppedRegs r ic s) s m.2 := (accessed_absEA r i ic a s).memRead _
  have hindex : getPhys (regOf r s) m.2 = steppedValue ic (readReg r s) :=
    (memRead_getPhys _ _ _).trans (getPhys_absEA r i ic a s)
  obtain ⟨-, -, -, -, -, -, ⟨hregs, -⟩, -⟩ := aluDone_aluReg core (operandReg r ic) m.1 m.2
  rw [hread.regOf_eq] at hregs
  rw [← (busOnly_memRead ea.1 ea.2).readReg (operandReg r ic)]
  exact ⟨hread.aluDone core _ _, indexStepped_of_regsKept hindex hregs⟩

end

/-- Settles O31: each of the four is an `aluReg`. -/
theorem registerArithmetic : Obligations.RegisterArithmetic := fun s r v =>
  ⟨⟨_, rfl, aluDone_aluReg addCore .r0 (readReg r s) s⟩, ⟨_, rfl, aluDone_aluReg addCore r v s⟩,
    ⟨_, rfl, aluDone_aluReg subCore .r0 (readReg r s) s⟩, ⟨_, rfl, aluDone_aluReg subCore r v s⟩⟩

/-- Settles O32, format by format. -/
theorem memoryArithmetic : Obligations.MemoryArithmetic := fun s r i d ic a =>
  ⟨⟨⟨_, rfl, aluDone_withRel addCore r i d s⟩, ⟨_, rfl, aluDone_withRel subCore r i d s⟩⟩,
    ⟨_, rfl, aluDone_withAbs addCore r i ic a s⟩, ⟨_, rfl, aluDone_withAbs subCore r i ic a s⟩⟩

end Sys2Proof.Machine
end

section
namespace Sys2Proof.Machine

/-! ## AND, IOR and EOR (42_logical.md R198)

`andReg`, `iorReg` and `eorReg` differ in the operation on two bytes alone: what holds of all three is said of
`logicReg`. Each is a load of the result, so the rules of the loads apply. -/

/-- `R[r]` combined with `b` by an operation on bytes, and CC from the result. -/
def logicReg (op : Byte → Byte → Byte) (r : Reg) (b : Byte) (s : State) : State :=
  loadReg r (op (readReg r s) b) s

theorem andReg_eq_logicReg : andReg = logicReg (· &&& ·) := rfl

theorem iorReg_eq_logicReg : iorReg = logicReg (· ||| ·) := rfl

theorem eorReg_eq_logicReg : eorReg = logicReg (· ^^^ ·) := rfl

/-- Any byte loaded into the operand register after an absolute access: the step of the index register stays
done. -/
theorem loaded_absRead (r : Reg) (i : Bool) (ic : IndexControl) (a : Off) (v : Byte) (s : State) :
    let m := memRead (absEA r i ic a s).1 (absEA r i ic a s).2
    let q := regOf (operandReg r ic) s
    Loaded q v (q :: steppedRegs r ic s) m.2 s (loadReg (operandReg r ic) v m.2) ∧
      IndexStepped r ic q s (loadReg (operandReg r ic) v m.2) := by
  intro m q
  have hread : Accessed (steppedRegs r ic s) s m.2 := (accessed_absEA r i ic a s).memRead _
  have hindex : getPhys (regOf r s) m.2 = steppedValue ic (readReg r s) :=
    (memRead_getPhys _ _ _).trans (getPhys_absEA r i ic a s)
  obtain ⟨-, -, -, ⟨hregs, -⟩, -⟩ := loadReg_spec (operandReg r ic) v m.2
  rw [hread.regOf_eq] at hregs
  exact ⟨hread.loaded _ v, indexStepped_of_regsKept hindex hregs⟩

section

variable (op : Byte → Byte → Byte)

theorem loaded_logicReg (r : Reg) (b : Byte) (s : State) :
    Loaded (regOf r s) (op (readReg r s) b) [regOf r s] s s (logicReg op r b s) :=
  loaded_loadReg r (op (readReg r s) b) s

/-- Format R: the operand is reached by bus operations alone, so `R[r]` is read as it was. -/
theorem loaded_withRel_logicReg (r : Reg) (i : Bool) (d : BitVec 7) (s : State) :
    let m := memRead (relEA i d s).1 (relEA i d s).2
    Loaded (regOf r s) (op (readReg r s) m.1) [regOf r s] m.2 s (withRel i d (logicReg op r) s) := by
  intro m
  have hbus : BusOnly s m.2 := (busOnly_relEA i d s).trans (busOnly_memRead _ _)
  rw [← hbus.readReg r]
  exact hbus.accessed.loaded r (op (readReg r m.2) m.1)

/-- Format A: the operand register is read after the step of the index register. -/
theorem loaded_withAbs_logicReg (r : Reg) (i : Bool) (ic : IndexControl) (a : Off) (s : State) :
    let ea := absEA r i ic a s
    let m := memRead ea.1 ea.2
    let q := regOf (operandReg r ic) s
    Loaded q (op (readReg (operandReg r ic) ea.2) m.1) (q :: steppedRegs r ic s) m.2 s
        (withAbs r i ic a (logicReg op) s) ∧
      IndexStepped r ic q s (withAbs r i ic a (logicReg op) s) := by
  intro ea m q
  rw [← (busOnly_memRead ea.1 ea.2).readReg (operandReg r ic)]
  exact loaded_absRead r i ic a (op (readReg (operandReg r ic) m.2) m.1) s

end

/-- Settles O33: each of the six is a `logicReg`. -/
theorem registerLogic : Obligations.RegisterLogic := fun s r v =>
  ⟨⟨_, rfl, loaded_logicReg (· &&& ·) .r0 (readReg r s) s⟩,
    ⟨_, rfl, loaded_logicReg (· ||| ·) .r0 (readReg r s) s⟩,
    ⟨_, rfl, loaded_logicReg (· ^^^ ·) .r0 (readReg r s) s⟩,
    ⟨_, rfl, loaded_logicReg (· &&& ·) r v s⟩,
    ⟨_, rfl, loaded_logicReg (· ||| ·) r v s⟩,
    ⟨_, rfl, loaded_logicReg (· ^^^ ·) r v s⟩⟩

/-- Settles O34, format by format. -/
theorem memoryLogic : Obligations.MemoryLogic := fun s r i d ic a =>
  ⟨⟨⟨_, rfl, loaded_withRel_logicReg (· &&& ·) r i d s⟩,
      ⟨_, rfl, loaded_withRel_logicReg (· ||| ·) r i d s⟩,
      ⟨_, rfl, loaded_withRel_logicReg (· ^^^ ·) r i d s⟩⟩,
    ⟨_, rfl, loaded_withAbs_logicReg (· &&& ·) r i ic a s⟩,
    ⟨_, rfl, loaded_withAbs_logicReg (· ||| ·) r i ic a s⟩,
    ⟨_, rfl, loaded_withAbs_logicReg (· ^^^ ·) r i ic a s⟩⟩

end Sys2Proof.Machine
end

section
namespace Sys2Proof.Machine

/-! ## COM (43_compare_rotate.md R200 to R203, R207) -/

/-- A comparison after the access to its operand: the step of an index register stays. -/
theorem Accessed.tested {ws : List PhysReg} {s u : State} (h : Accessed ws s u) (r : Reg) (b : Byte) :
    Tested (ccCmp (Psl.com s.psl) (readReg r u) b) ws u s (compareReg r b u) := by
  obtain ⟨hcc, hiar, hframe, hbus⟩ := compareReg_spec r b u
  rw [h.psl] at hcc
  exact ⟨hcc, hiar.trans h.iar, h.frame_append hframe, hbus⟩

theorem tested_compareReg (r : Reg) (b : Byte) (s : State) :
    Tested (ccCmp (Psl.com s.psl) (readReg r s) b) [] s s (compareReg r b s) := compareReg_spec r b s

@[simp] theorem getPhys_compareReg (q : PhysReg) (r : Reg) (b : Byte) (s : State) :
    getPhys q (compareReg r b s) = getPhys q s := getPhys_setCC q _ s

/-- Settles O35: both are a `compareReg`. -/
theorem registerCompares : Obligations.RegisterCompares := fun s r v =>
  ⟨⟨_, rfl, tested_compareReg .r0 (readReg r s) s⟩, ⟨_, rfl, tested_compareReg r v s⟩⟩

/-- Format R: the operand is reached by bus operations alone, so `R[r]` is compared as it was. -/
theorem tested_withRel (r : Reg) (i : Bool) (d : BitVec 7) (s : State) :
    let m := memRead (relEA i d s).1 (relEA i d s).2
    Tested (ccCmp (Psl.com s.psl) (readReg r s) m.1) [] m.2 s (withRel i d (compareReg r) s) := by
  intro m
  have hbus : BusOnly s m.2 := (busOnly_relEA i d s).trans (busOnly_memRead _ _)
  rw [← hbus.readReg r]
  exact hbus.accessed.tested r m.1

/-- Format A: the operand register is compared after the step of the index register. -/
theorem tested_withAbs (r : Reg) (i : Bool) (ic : IndexControl) (a : Off) (s : State) :
    let ea := absEA r i ic a s
    let m := memRead ea.1 ea.2
    Tested (ccCmp (Psl.com s.psl) (readReg (operandReg r ic) ea.2) m.1) (steppedRegs r ic s) m.2 s
      (withAbs r i ic a compareReg s) := by
  intro ea m
  rw [← (busOnly_memRead ea.1 ea.2).readReg (operandReg r ic)]
  exact ((accessed_absEA r i ic a s).memRead ea.1).tested (operandReg r ic) m.1

/-- A comparison writes no register, so the index register has its stepped value in every form. -/
theorem getPhys_withAbs_compareReg (r : Reg) (i : Bool) (ic : IndexControl) (a : Off) (s : State) :
    getPhys (regOf r s) (withAbs r i ic a compareReg s) = steppedValue ic (readReg r s) := by
  rw [withAbs, getPhys_compareReg, memRead_getPhys, getPhys_absEA]

/-- Settles O36, format by format. -/
theorem memoryCompares : Obligations.MemoryCompares := fun s r i d ic a =>
  ⟨⟨_, rfl, tested_withRel r i d s⟩,
    ⟨_, rfl, tested_withAbs r i ic a s, getPhys_withAbs_compareReg r i ic a s⟩⟩

/-! ## The rotates (43_compare_rotate.md R204 to R206)

With WC = 0 a rotate is a load of the rotated byte; with WC = 1 it writes the register and the flags as the adder
does. What remains is which byte and which flags these are. -/

section

variable (p v : Byte)

theorem extractLsb'_append_ofBool (b : Bool) :
    v.extractLsb' 0 7 ++ BitVec.ofBool b = BitVec.ofNat 8 (2 * v.toNat + b.toNat) := by
  apply BitVec.eq_of_toNat_eq
  rw [BitVec.toNat_append, BitVec.toNat_ofBool, ← Nat.shiftLeft_add_eq_or_of_lt b.toNat_lt,
    BitVec.extractLsb'_toNat, BitVec.toNat_ofNat, Nat.shiftRight_zero, Nat.shiftLeft_eq]
  have := b.toNat_lt
  omega

theorem ofBool_append_extractLsb' (b : Bool) :
    (BitVec.ofBool b ++ v.extractLsb' 1 7 : Byte) = BitVec.ofNat 8 (v.toNat / 2 + 128 * b.toNat) := by
  apply BitVec.eq_of_toNat_eq
  have hlow : (v.extractLsb' 1 7).toNat = v.toNat / 2 := by
    rw [BitVec.extractLsb'_toNat, Nat.shiftRight_eq_div_pow]
    omega
  rw [BitVec.toNat_append, ← Nat.shiftLeft_add_eq_or_of_lt (BitVec.isLt _), hlow, BitVec.toNat_ofBool,
    BitVec.toNat_ofNat, Nat.shiftLeft_eq]
  have := b.toNat_lt
  omega

theorem toNat_getLsbD_zero : (v.getLsbD 0).toNat = v.toNat % 2 := by
  rw [BitVec.getLsbD, Nat.toNat_testBit, pow_zero, Nat.div_one]

theorem toNat_getLsbD_seven : (v.getLsbD 7).toNat = v.toNat / 128 := by
  rw [BitVec.getLsbD, Nat.toNat_testBit]
  omega

/-- RRL within eight bits: bit 7 comes in at bit 0. -/
theorem rotateLeft_of_not_wc (h : Psl.wc p = false) :
    rotateLeft p v = BitVec.ofNat 8 (2 * v.toNat + v.toNat / 128) := by
  rw [rotateLeft, h, if_neg Bool.false_ne_true, extractLsb'_append_ofBool, toNat_getLsbD_seven]

/-- RRL through C: C comes in at bit 0. -/
theorem rotateLeft_of_wc (h : Psl.wc p = true) :
    rotateLeft p v = BitVec.ofNat 8 (2 * v.toNat + (Psl.c p).toNat) := by
  rw [rotateLeft, h, if_pos rfl, extractLsb'_append_ofBool]

/-- RRR within eight bits: bit 0 comes in at bit 7. -/
theorem rotateRight_of_not_wc (h : Psl.wc p = false) :
    rotateRight p v = BitVec.ofNat 8 (v.toNat / 2 + 128 * (v.toNat % 2)) := by
  rw [rotateRight, h, if_neg Bool.false_ne_true, ofBool_append_extractLsb', toNat_getLsbD_zero]

/-- RRR through C: C comes in at bit 7. -/
theorem rotateRight_of_wc (h : Psl.wc p = true) :
    rotateRight p v = BitVec.ofNat 8 (v.toNat / 2 + 128 * (Psl.c p).toNat) := by
  rw [rotateRight, h, if_pos rfl, ofBool_append_extractLsb']

theorem getLsbD_rotateLeft_succ {n : Nat} (hn : n < 7) :
    (rotateLeft p v).getLsbD (n + 1) = v.getLsbD n :=
  BitVec.getLsbD_append.trans (by simp [hn])

theorem getLsbD_rotateRight {n : Nat} (hn : n < 7) :
    (rotateRight p v).getLsbD n = v.getLsbD (n + 1) :=
  BitVec.getLsbD_append.trans (by simp [hn, Nat.add_comm])

theorem msb_rotateLeft : (rotateLeft p v).msb = v.getLsbD 6 := getLsbD_rotateLeft_succ p v (by decide)

theorem msb_rotateRight_of_wc (h : Psl.wc p = true) : (rotateRight p v).msb = Psl.c p := by
  rw [rotateRight, h, if_pos rfl, BitVec.msb_append]
  simp

end

/-- What a rotate through C of `old` to `new` delivers, in the form of an adder's result. -/
def rotateResult (sticky : Bool) (psl old new : Byte) (out : Bool) : AluResult where
  res := new
  c := out
  idc := new.getLsbD 5
  ovf := rotateOvf sticky psl old new

/-- The four values that RRL through C delivers, each from the bits of the byte. -/
theorem rotateResult_left {p : Byte} (h : Psl.wc p = true) (sticky : Bool) (v : Byte) :
    rotateResult sticky p v (rotateLeft p v) (v.getLsbD 7) =
      { res := BitVec.ofNat 8 (2 * v.toNat + (Psl.c p).toNat), c := v.getLsbD 7, idc := v.getLsbD 4,
        ovf := (v.getLsbD 6 != v.getLsbD 7) || (sticky && Psl.ovf p) } := by
  have hovf : (v.msb != (rotateLeft p v).msb) = (v.getLsbD 6 != v.getLsbD 7) := by
    rw [msb_rotateLeft]
    exact Bool.xor_comm _ _
  rw [rotateResult, rotateOvf, hovf, getLsbD_rotateLeft_succ p v (by decide), rotateLeft_of_wc p v h]

theorem rotateResult_right {p : Byte} (h : Psl.wc p = true) (sticky : Bool) (v : Byte) :
    rotateResult sticky p v (rotateRight p v) (v.getLsbD 0) =
      { res := BitVec.ofNat 8 (v.toNat / 2 + 128 * (Psl.c p).toNat), c := v.getLsbD 0, idc := v.getLsbD 6,
        ovf := (Psl.c p != v.getLsbD 7) || (sticky && Psl.ovf p) } := by
  have hovf : (v.msb != (rotateRight p v).msb) = (Psl.c p != v.getLsbD 7) := by
    rw [msb_rotateRight_of_wc p v h]
    exact Bool.xor_comm _ _
  rw [rotateResult, rotateOvf, hovf, getLsbD_rotateRight p v (by decide), rotateRight_of_wc p v h]

/-- With WC = 0 only the rotated byte and CC are written (R206, D7). -/
theorem rotateTo_of_not_wc {s : State} (h : Psl.wc s.psl = false) (r : Reg) (new : Byte) (out : Bool) :
    rotateTo r new out s = loadReg r new s := by
  rw [rotateTo, pslAfterRotate, if_neg (by simp [h]), loadReg, setCC, writeReg_psl]

/-- With WC = 1 the register and the flags are written as after an addition (R206, D8). -/
theorem rotateTo_of_wc {s : State} (h : Psl.wc s.psl = true) (r : Reg) (new : Byte) (out : Bool) :
    let x := rotateResult s.params.rotateOvfSticky s.psl (readReg r s) new out
    rotateTo r new out s = setPsl (pslAfterAlu s.psl x) (writeReg r x.res s) := by
  rw [rotateTo, pslAfterRotate, if_pos h]
  rfl

theorem loaded_rotateTo {s : State} (h : Psl.wc s.psl = false) (r : Reg) (new : Byte) (out : Bool) :
    Loaded (regOf r s) new [regOf r s] s s (rotateTo r new out s) := by
  rw [rotateTo_of_not_wc h]
  exact loaded_loadReg r new s

theorem aluDone_rotateTo {s : State} (h : Psl.wc s.psl = true) (r : Reg) (new : Byte) (out : Bool) :
    AluDone (regOf r s) (rotateResult s.params.rotateOvfSticky s.psl (readReg r s) new out) [regOf r s] s s
      (rotateTo r new out s) := by
  rw [rotateTo_of_wc h]
  exact writeAlu_spec r (rotateResult s.params.rotateOvfSticky s.psl (readReg r s) new out) s

/-- Settles O37: a rotate is a load of the rotated byte when WC = 0, and a write of its `rotateResult` when
WC = 1. -/
theorem rotates : Obligations.Rotates := by
  intro s r v q c sticky
  refine ⟨fun hwc => ⟨⟨_, rfl, ?_⟩, ⟨_, rfl, ?_⟩⟩, fun hwc => ⟨⟨_, rfl, ?_⟩, ⟨_, rfl, ?_⟩⟩⟩
  · rw [← rotateLeft_of_not_wc s.psl v hwc]
    exact loaded_rotateTo hwc r _ _
  · rw [← rotateRight_of_not_wc s.psl v hwc]
    exact loaded_rotateTo hwc r _ _
  · rw [← rotateResult_left hwc]
    exact aluDone_rotateTo hwc r _ _
  · rw [← rotateResult_right hwc]
    exact aluDone_rotateTo hwc r _ _

end Sys2Proof.Machine
end

section
namespace Sys2Proof.Machine

/-! ## Writing PSU (44_program_status.md R210, R214, R216)

LPSU, PPSU and CPSU are one `writePsu`, each of another byte: what a write does is said once, and the byte's bits
6, 5 and 2-0 remain. -/

/-- F, II and SP have been written, the FLAG pin follows F, and a change of F is one event on it. Nothing else has
changed. -/
def UpperWritten (f ii : Bool) (sp : BitVec 3) (s t : State) : Prop :=
  t.f = f ∧ t.ii = ii ∧ t.sp = sp ∧ flagPin t = t.f ∧
    t.history = (if t.f = s.f then s.history else .flag t.f :: s.history) ∧ t.env = s.env ∧
    RegsKept [] s t ∧ t.psl = s.psl ∧ ControlKept s t ∧ t.iar = s.iar ∧ BytesKept s t

theorem upperWritten_writePsu (b : Byte) (s : State) :
    UpperWritten (b.getLsbD 6) (b.getLsbD 5) (b.extractLsb' 0 3) s (writePsu b s) := by
  refine ⟨?_, ?_, ?_, rfl, ?_, ?_, fun q _ => getPhys_writePsu q b s, writePsu_psl b s,
    writePsu_controlKept b s, writePsu_iar b s, (quiet_writePsu b s).bytesKept⟩
  all_goals rw [writePsu_spec]

section

variable (v : Byte) (s : State)

/-- PPSU: the bits the mask selects are set. -/
theorem upperWritten_preset :
    UpperWritten (s.f || v.getLsbD 6) (s.ii || v.getLsbD 5) (s.sp ||| v.extractLsb' 0 3) s
      (writePsu (psuByte false s ||| v) s) := by
  have h := upperWritten_writePsu (psuByte false s ||| v) s
  rwa [BitVec.getLsbD_or, BitVec.getLsbD_or, BitVec.extractLsb'_or, psuByte_flag, psuByte_inhibit,
    psuByte_sp] at h

/-- CPSU: the bits the mask selects are cleared. -/
theorem upperWritten_clear :
    UpperWritten (s.f && !v.getLsbD 6) (s.ii && !v.getLsbD 5) (s.sp &&& ~~~v.extractLsb' 0 3) s
      (writePsu (psuByte false s &&& ~~~v) s) := by
  have h := upperWritten_writePsu (psuByte false s &&& ~~~v) s
  have hnot {n : Nat} (hn : n < 8) : (~~~v).getLsbD n = !v.getLsbD n := by simp [hn]
  rwa [BitVec.getLsbD_and, BitVec.getLsbD_and, BitVec.extractLsb'_and, psuByte_flag, psuByte_inhibit,
    psuByte_sp, hnot (by decide), hnot (by decide), BitVec.extractLsb'_not_of_lt (by decide)] at h

end

/-- Settles O38, instruction by instruction. -/
theorem upperStatusWrites : Obligations.UpperStatusWrites := fun s v =>
  List.forall_mem_cons.mpr ⟨⟨_, rfl, upperWritten_writePsu s.r0 s⟩,
    List.forall_mem_cons.mpr ⟨⟨_, rfl, upperWritten_preset v s⟩,
      List.forall_mem_singleton.mpr ⟨_, rfl, upperWritten_clear v s⟩⟩⟩

/-! ## Writing PSL (44_program_status.md R211, R215, R217) -/

/-- PSL written whole, and nothing else. -/
def LowerWritten (p : Byte) (s t : State) : Prop :=
  t.psl = p ∧ RegsKept [] s t ∧ PsuKept s t ∧ ControlKept s t ∧ t.iar = s.iar ∧ BytesKept s t ∧ BusAs s t

theorem lowerWritten_setPsl (p : Byte) (s : State) : LowerWritten p s (setPsl p s) := by
  obtain ⟨hregs, -, hpsu, hcontrol, hbytes⟩ := frame_setPsl p 0xFF#8 [] s (by simp)
  exact ⟨rfl, hregs, hpsu, hcontrol, rfl, hbytes, rfl, rfl⟩

/-- Settles O39: each of the three is a `setPsl`. -/
theorem lowerStatusWrites : Obligations.LowerStatusWrites := fun s v =>
  List.forall_mem_cons.mpr ⟨⟨_, rfl, lowerWritten_setPsl s.r0 s⟩,
    List.forall_mem_cons.mpr ⟨⟨_, rfl, lowerWritten_setPsl (s.psl ||| v) s⟩,
      List.forall_mem_singleton.mpr ⟨_, rfl, lowerWritten_setPsl (s.psl &&& ~~~v) s⟩⟩⟩

/-! ## Storing PSU and PSL (44_program_status.md R212, R213, R220) -/

/-- Bits 4 and 3 of PSU are no storage and read 0 (D20). -/
theorem psuByte_unused (b : Bool) (s : State) :
    (psuByte b s).getLsbD 4 = false ∧ (psuByte b s).getLsbD 3 = false := by
  rw [psuByte]; generalize s.f = f; generalize s.ii = i; generalize s.sp = p
  revert b f i p; decide

theorem senseSample_of_cons {s : State} {b : Bool} {rest : List Bool} (h : s.env.senses = b :: rest) :
    senseSample s = (b, { s with env := { s.env with senses := rest } }) := by
  rw [senseSample, h]

/-- Settles O40: both are a load of R0, SPSU after the sample of SENSE. -/
theorem statusStores : Obligations.StatusStores := by
  intro s
  refine ⟨⟨_, psuByte (senseSample s).1 s, rfl, (busOnly_senseSample s).accessed.loaded .r0 _,
      psuByte_sense _ s, psuByte_flag _ s, psuByte_inhibit _ s, ?_⟩,
    ⟨_, rfl, loaded_loadReg .r0 s.psl s⟩, fun b rest h => ?_⟩
  · obtain ⟨hbit4, hbit3⟩ := psuByte_unused (senseSample s).1 s
    exact ⟨hbit4, hbit3, psuByte_sp _ s⟩
  · rw [senseSample_of_cons h]; exact ⟨rfl, rfl⟩

/-! ## The tests under a mask (44_program_status.md R218, R219, R222, 48_misc.md R271) -/

/-- Masking gives back the mask exactly when every bit it selects is 1. -/
theorem and_eq_mask_iff (x mask : Byte) :
    x &&& mask = mask ↔ ∀ k < 8, mask.getLsbD k = true → x.getLsbD k = true := by
  rw [BitVec.eq_of_getLsbD_eq_iff]
  refine forall₂_congr fun k _ => ?_
  rw [BitVec.getLsbD_and, Bool.and_eq_right_iff_imp]

theorem ccTest_eq (x mask : Byte) :
    ccTest x mask =
      if (List.range 8).all fun k => !mask.getLsbD k || x.getLsbD k then 0b00#2 else 0b10#2 := by
  refine if_congr ((and_eq_mask_iff x mask).trans ?_) rfl rfl
  simp [imp_iff_not_or]

/-- A test writes CC alone, whatever bus operations came before it. -/
theorem BusOnly.tested_setCC {s u : State} (h : BusOnly s u) (cc : BitVec 2) :
    Tested cc [] u s (setCC cc u) :=
  ⟨by simp, h.iar, (h.frame [] ccMask).trans (frame_setCC cc [] u), rfl, rfl⟩

/-- Settles O41: each of the three is a `setCC` of the test, TPSU's after the sample of SENSE. -/
theorem maskTests : Obligations.MaskTests := by
  intro s r v
  simp only [← ccTest_eq]
  exact ⟨⟨_, rfl, (busOnly_senseSample s).tested_setCC _⟩, ⟨_, rfl, (BusOnly.refl s).tested_setCC _⟩,
    ⟨_, rfl, (BusOnly.refl s).tested_setCC _⟩⟩

end Sys2Proof.Machine
end

section
namespace Sys2Proof.Machine

/-! ## The branches (45_branch.md R225 to R239)

All twelve end in one shape: IAR at the address formed, or the state as it was. They differ in the condition, in
the address, and in whether a register has been stepped before; what the shape does is said once. -/

/-- A branch to an address, formed with the state that follows its pointer reads. -/
def branchTo (taken : Bool) (ea : Addr × State) (s : State) : State := if taken then setIar ea.1 ea.2 else s

theorem branchRel_eq_branchTo (taken i : Bool) (d : BitVec 7) (s : State) :
    branchRel taken i d s = branchTo taken (relEA i d s) s := rfl

theorem branchAbs_eq_branchTo (taken i : Bool) (a : Addr) (s : State) :
    branchAbs taken i a s = branchTo taken (branchEA i a s) s := rfl

/-- The condition of BCT, BST and RETC, read literally (D19). -/
theorem matchTrue_iff (v : BitVec 2) (s : State) : matchTrue v s = true ↔ v = 3#2 ∨ v = Psl.cc s.psl := by
  simp [matchTrue]

/-- The condition of BCF and BSF; 3 has no special meaning here (D19). -/
theorem matchFalse_iff (v : BitVec 2) (s : State) : matchFalse v s = true ↔ v ≠ Psl.cc s.psl := bne_iff_ne

theorem accessed_writeReg (r : Reg) (v : Byte) (s : State) : Accessed [regOf r s] s (writeReg r v s) :=
  ⟨frame_writeReg r v 0#8 s, writeReg_iar s r v, writeReg_mem s r v⟩

theorem busAs_writeReg (r : Reg) (v : Byte) (s : State) : BusAs s (writeReg r v s) :=
  ⟨writeReg_history s r v, writeReg_env s r v⟩

theorem BusOnly.frame_setIar {s t : State} (h : BusOnly s t) (a : Addr) (ws : List PhysReg) :
    Frame ws 0#8 s (setIar a t) :=
  (h.frame ws 0#8).trans
    ⟨fun q _ => getPhys_setIar q a t, rfl, ⟨rfl, rfl, rfl⟩, ⟨rfl, rfl, rfl, rfl, rfl⟩, fun _ => rfl⟩

section

variable {s u : State} {ea : Addr × State}

theorem BusOnly.frame_branchTo (h : BusOnly u ea.2) (taken : Bool) (ws : List PhysReg) :
    Frame ws 0#8 u (branchTo taken ea u) := by
  cases taken
  · exact Frame.refl ws 0#8 u
  · exact h.frame_setIar ea.1 ws

/-- A branch after an update of registers `ws` that does no bus operation: the address is formed, and its pointer
read, only when the branch is taken (D33). -/
theorem Accessed.branchDone {ws : List PhysReg} (hu : Accessed ws s u) (hbus : BusAs s u)
    (hea : BusOnly u ea.2) {taken : Bool} {cond : Prop} (hcond : taken = true ↔ cond) :
    BranchDone cond ea ws s (branchTo taken ea u) := by
  refine ⟨fun h => ?_, fun h => ?_, hu.frame.trans (hea.frame_branchTo taken ws)⟩
  · obtain rfl : taken = true := hcond.mpr h
    exact ⟨rfl, rfl, rfl⟩
  · obtain rfl : taken = false := Bool.eq_false_iff.mpr (mt hcond.mp h)
    exact ⟨hu.iar, hbus⟩

/-- A branch that steps no register. -/
theorem BusOnly.branchDone (hea : BusOnly s ea.2) {taken : Bool} {cond : Prop} (hcond : taken = true ↔ cond) :
    BranchDone cond ea [] s (branchTo taken ea s) :=
  (BusOnly.refl s).accessed.branchDone ⟨rfl, rfl⟩ hea hcond

/-- BIR and BDR: the register holds its new value whether or not that value makes the branch taken. -/
theorem branchDone_writeReg {r : Reg} {v : Byte} (hea : BusOnly (writeReg r v s) ea.2) :
    getPhys (regOf r s) (branchTo (v != 0) ea (writeReg r v s)) = v ∧
      BranchDone (v ≠ 0) ea [regOf r s] s (branchTo (v != 0) ea (writeReg r v s)) := by
  obtain ⟨hregs, -⟩ := hea.frame_branchTo (v != 0) []
  have hstepped : getPhys (regOf r s) (writeReg r v s) = v := getPhys_setPhys_same (regOf r s) v s
  exact ⟨(hregs _ List.not_mem_nil).trans hstepped,
    (accessed_writeReg r v s).branchDone (busAs_writeReg r v s) hea bne_iff_ne⟩

end

/-- Settles O42: each of the six is a `branchTo` under its condition. -/
theorem conditionalBranches : Obligations.ConditionalBranches := fun s v r i d a => by
  have hrel : BusOnly s (relEA i d s).2 := busOnly_relEA i d s
  have habs : BusOnly s (branchEA i a s).2 := busOnly_branchEA i a s
  exact ⟨⟨_, rfl, hrel.branchDone (matchTrue_iff v s)⟩, ⟨_, rfl, habs.branchDone (matchTrue_iff v s)⟩,
    ⟨_, rfl, hrel.branchDone (matchFalse_iff v s)⟩, ⟨_, rfl, habs.branchDone (matchFalse_iff v s)⟩,
    ⟨_, rfl, hrel.branchDone bne_iff_ne⟩, ⟨_, rfl, habs.branchDone bne_iff_ne⟩⟩

/-- Settles O43: the register written with the stepped value, then a `branchTo` from there. -/
theorem steppingBranches : Obligations.SteppingBranches := fun s r i d a =>
  have hrel (v : Byte) := branchDone_writeReg (busOnly_relEA i d (writeReg r v s))
  have habs (v : Byte) := branchDone_writeReg (busOnly_branchEA i a (writeReg r v s))
  List.forall_mem_cons.mpr ⟨⟨⟨_, rfl, hrel (readReg r s + 1)⟩, ⟨_, rfl, habs (readReg r s + 1)⟩⟩,
    List.forall_mem_singleton.mpr ⟨⟨_, rfl, hrel (readReg r s - 1)⟩, ⟨_, rfl, habs (readReg r s - 1)⟩⟩⟩

/-- Settles O44: both are a `branchTo` that is always taken. -/
theorem unconditionalBranches : Obligations.UnconditionalBranches := fun s i d a =>
  have halways : true = true ↔ True := iff_of_true rfl trivial
  ⟨⟨_, rfl, (busOnly_zeroRelEA i d s).branchDone halways⟩,
    ⟨_, rfl, (busOnly_indexedBranchEA i a s).branchDone halways⟩⟩

end Sys2Proof.Machine
end

section
namespace Sys2Proof.Machine

/-! ## The subroutine branches and returns (46_subroutine.md R245 to R256)

A call takes the shape of a branch with a push before the jump, and a return pops; neither touches more than IAR, SP,
the stack and, for RETE, II. The frame of both is said once, then the two shapes. -/

/-- What keeps every register, PSL, PSU, the control state and memory keeps in particular what a call keeps. -/
theorem Frame.linkFrame {s t : State} (h : Frame [] 0#8 s t) : LinkFrame s t := by
  obtain ⟨hregs, hpsl, ⟨hf, -, -⟩, ⟨-, hrun, hwait, hlatch, hpar⟩, hbytes⟩ := h
  exact ⟨hregs, pslKept_zero.mp hpsl, hf, hrun, hwait, hlatch, hpar, hbytes⟩

theorem LinkFrame.refl (s : State) : LinkFrame s s := (Frame.refl [] 0#8 s).linkFrame

theorem LinkFrame.trans {s t u : State} (h : LinkFrame s t) (k : LinkFrame t u) : LinkFrame s u := by
  obtain ⟨hregs, hpsl, hf, hrun, hwait, hlatch, hpar, hbytes⟩ := h
  obtain ⟨kregs, kpsl, kf, krun, kwait, klatch, kpar, kbytes⟩ := k
  exact ⟨fun q hq => (kregs q hq).trans (hregs q hq), kpsl.trans hpsl, kf.trans hf, krun.trans hrun,
    kwait.trans hwait, klatch.trans hlatch, kpar.trans hpar, fun a => (kbytes a).trans (hbytes a)⟩

theorem linkFrame_push (a : Addr) (s : State) : LinkFrame s (push a s) :=
  ⟨fun q _ => getPhys_push q a s, rfl, rfl, rfl, rfl, rfl, rfl, fun _ => rfl⟩

theorem linkFrame_popToIar (s : State) : LinkFrame s (popToIar s) :=
  ⟨fun q _ => getPhys_popToIar q s, rfl, rfl, rfl, rfl, rfl, rfl, fun _ => rfl⟩

theorem linkFrame_setInhibit (b : Bool) (s : State) : LinkFrame s (setInhibit b s) :=
  ⟨fun q _ => getPhys_setInhibit q b s, rfl, rfl, rfl, rfl, rfl, rfl, fun _ => rfl⟩

/-! ### The calls -/

/-- A call to an address, formed with the state that follows its pointer reads. -/
def callWhen (taken : Bool) (ea : Addr × State) (s : State) : State := if taken then callTo ea else s

theorem callRel_eq_callWhen (taken i : Bool) (d : BitVec 7) (s : State) :
    callRel taken i d s = callWhen taken (relEA i d s) s := rfl

theorem callAbs_eq_callWhen (taken i : Bool) (a : Addr) (s : State) :
    callAbs taken i a s = callWhen taken (branchEA i a s) s := rfl

section

variable {s : State} {ea : Addr × State}

/-- Forming the address has moved neither IAR nor SP: what is pushed is `next`, one above the old SP. -/
theorem BusOnly.pushed_callTo (h : BusOnly s ea.2) : Pushed s.iar s (callTo ea) := by
  obtain ⟨-, hsp, hras⟩ := callTo_spec ea
  rw [h.sp] at hsp hras
  refine ⟨hsp, ?_, fun j hj => ?_⟩
  · rw [hras, if_pos rfl, h.iar]
  · rw [hras, if_neg hj, h.ras]

theorem BusOnly.linkFrame_callTo (h : BusOnly s ea.2) : LinkFrame s (callTo ea) :=
  have hjump : LinkFrame (push ea.2.iar ea.2) (callTo ea) :=
    ((BusOnly.refl (push ea.2.iar ea.2)).frame_setIar ea.1 []).linkFrame
  ((h.frame [] 0#8).linkFrame.trans (linkFrame_push ea.2.iar ea.2)).trans hjump

/-- The address is formed, its pointer read and `next` pushed, only when the call is taken (D33). -/
theorem BusOnly.callDone (h : BusOnly s ea.2) {taken : Bool} {cond : Prop} (hcond : taken = true ↔ cond) :
    CallDone cond ea s (callWhen taken ea s) := by
  cases taken with
  | false =>
    have hnot : ¬cond := mt hcond.mpr Bool.false_ne_true
    exact ⟨fun hc => absurd hc hnot, fun _ => ⟨rfl, rfl, rfl, rfl, rfl⟩, rfl, LinkFrame.refl s⟩
  | true =>
    have hc : cond := hcond.mp rfl
    exact ⟨fun _ => ⟨rfl, h.pushed_callTo, rfl, rfl⟩, fun hnot => absurd hc hnot, h.ii, h.linkFrame_callTo⟩

end

/-- Settles O45: each of the six is a `callWhen` under its condition. -/
theorem conditionalCalls : Obligations.ConditionalCalls := fun s v r i d a => by
  have hrel : BusOnly s (relEA i d s).2 := busOnly_relEA i d s
  have habs : BusOnly s (branchEA i a s).2 := busOnly_branchEA i a s
  exact ⟨⟨_, rfl, hrel.callDone (matchTrue_iff v s)⟩, ⟨_, rfl, habs.callDone (matchTrue_iff v s)⟩,
    ⟨_, rfl, hrel.callDone (matchFalse_iff v s)⟩, ⟨_, rfl, habs.callDone (matchFalse_iff v s)⟩,
    ⟨_, rfl, hrel.callDone bne_iff_ne⟩, ⟨_, rfl, habs.callDone bne_iff_ne⟩⟩

/-- Settles O46: both are a `callWhen` that is always taken. -/
theorem unconditionalCalls : Obligations.UnconditionalCalls := fun s i d a =>
  have halways : true = true ↔ True := iff_of_true rfl trivial
  ⟨⟨_, rfl, (busOnly_zeroRelEA i d s).callDone halways⟩,
    ⟨_, rfl, (busOnly_indexedBranchEA i a s).callDone halways⟩⟩

/-! ### The returns -/

/-- A return: IAR popped and II at `ii` when taken, else both and SP as before; never a bus operation, and the
entries of the stack stay (R254, R255). -/
def ReturnDone (taken : Prop) (ii : Bool) (s t : State) : Prop :=
  LinkFrame s t ∧ t.ras = s.ras ∧ BusAs s t ∧
    (taken → t.iar = rasGet s.ras s.sp ∧ t.sp = s.sp - 1 ∧ t.ii = ii) ∧
    (¬taken → t.iar = s.iar ∧ t.sp = s.sp ∧ t.ii = s.ii)

section

variable {s : State}

theorem ReturnDone.of_not_taken {taken : Prop} (h : ¬taken) (ii : Bool) : ReturnDone taken ii s s :=
  ⟨LinkFrame.refl s, rfl, ⟨rfl, rfl⟩, fun ht => absurd ht h, fun _ => ⟨rfl, rfl, rfl⟩⟩

/-- RETC taken is a pop. -/
theorem returnDone_popToIar {taken : Prop} (h : taken) : ReturnDone taken s.ii s (popToIar s) :=
  ⟨linkFrame_popToIar s, rfl, ⟨rfl, rfl⟩, fun _ => ⟨rfl, rfl, rfl⟩, fun hnot => absurd h hnot⟩

/-- RETE taken clears II after the pop (R255). -/
theorem returnDone_setInhibit_popToIar {taken : Prop} (h : taken) :
    ReturnDone taken false s (setInhibit false (popToIar s)) :=
  ⟨(linkFrame_popToIar s).trans (linkFrame_setInhibit false (popToIar s)), rfl, ⟨rfl, rfl⟩,
    fun _ => ⟨rfl, rfl, rfl⟩, fun hnot => absurd h hnot⟩

theorem returnDone_takeReturn {taken : Prop} (h : taken) (enable : Bool) :
    ReturnDone taken (!enable && s.ii) s (takeReturn enable s) := by
  cases enable with
  | false => exact returnDone_popToIar h
  | true => exact returnDone_setInhibit_popToIar h

/-- The shape of RETC and RETE: `enable` alone tells them apart, and only a return that is taken looks at it. -/
theorem returnDone_return {taken : Bool} {cond : Prop} (hcond : taken = true ↔ cond) (enable : Bool) :
    ReturnDone cond (!enable && s.ii) s (if taken then takeReturn enable s else s) := by
  cases taken with
  | false => exact .of_not_taken (mt hcond.mpr Bool.false_ne_true) _
  | true => exact returnDone_takeReturn (hcond.mp rfl) enable

end

/-- Settles O47: RETC and RETE are the return without and with `enable`, under one condition. -/
theorem returns : Obligations.Returns := fun s v =>
  have hret := returnDone_return (matchTrue_iff v s)
  List.forall_mem_cons.mpr ⟨⟨_, rfl, hret false⟩, List.forall_mem_singleton.mpr ⟨_, rfl, hret true⟩⟩

end Sys2Proof.Machine
end

section
namespace Sys2Proof.Machine

/-! ## Input and output (47_io.md R260 to R267)

The three reads differ in their port alone, and so do the three writes: what `inputTo` and `ioWrite` do is said once
for every port. -/

/-! ### The reads -/

/-- A read takes the environment's next byte while its list holds one. -/
theorem ioRead_of_cons (p : IoPort) {s : State} {b : Byte} {rest : List Byte} (h : s.env.inputs = b :: rest) :
    (ioRead p s).1 = b ∧ (ioRead p s).2.env = { s.env with inputs := rest } := by
  rw [ioRead, drawInput_of_cons _ h]
  exact ⟨rfl, rfl⟩

theorem loaded_inputTo (r : Reg) (p : IoPort) (s : State) :
    Loaded (regOf r s) (ioRead p s).1 [regOf r s] (ioRead p s).2 s (inputTo r p s) :=
  (busOnly_ioRead p s).accessed.loaded r _

/-- Loading the register adds no event to that of the read. -/
theorem inputTo_history (r : Reg) (p : IoPort) (s : State) :
    (inputTo r p s).history = .ioRead p (ioRead p s).1 :: s.history := by
  obtain ⟨-, -, -, -, hhistory, -⟩ := loaded_inputTo r p s
  rw [hhistory, ioRead_history]

/-- The environment after a read instruction has lost the byte that was read, and nothing else. -/
theorem inputTo_env_of_cons (r : Reg) (p : IoPort) {s : State} {b : Byte} {rest : List Byte}
    (h : s.env.inputs = b :: rest) : (inputTo r p s).env = { s.env with inputs := rest } := by
  obtain ⟨-, -, -, -, -, henv⟩ := loaded_inputTo r p s
  obtain ⟨-, hrest⟩ := ioRead_of_cons p h
  exact henv.trans hrest

/-- Each read instruction is an `inputTo` from its port. -/
theorem exec_input_eq_inputTo (s : State) (r : Reg) (n : Byte) :
    ∀ x ∈ [((.redd r : Instr), IoPort.data), (.redc r, .control), (.rede r n, .extended n)],
      exec x.1 s = .next (inputTo r x.2 s) :=
  List.forall_mem_cons.mpr ⟨rfl, List.forall_mem_cons.mpr ⟨rfl, List.forall_mem_singleton.mpr rfl⟩⟩

/-- Settles O50: a load after the read of the port. -/
theorem inputInstructions : Obligations.InputInstructions := fun s r n x hx =>
  ⟨inputTo r x.2 s, (ioRead x.2 s).1, exec_input_eq_inputTo s r n x hx, loaded_inputTo r x.2 s,
    inputTo_history r x.2 s, fun _ _ h =>
      have ⟨hbyte, _⟩ := ioRead_of_cons x.2 h
      ⟨hbyte, inputTo_env_of_cons r x.2 h⟩⟩

/-! ### The writes -/

theorem outputs_logEvent_of_isOutput {e : Event} {s : State} (h : e.isOutput s.params.memMap = true) :
    outputs (logEvent e s) = outputs s ++ [e] := by
  rw [outputs, logEvent_history, logEvent_params, List.filter_cons_of_pos h, List.reverse_cons, outputs]

/-- A write to a port is an output wherever memory has devices. -/
theorem outputs_ioWrite (p : IoPort) (v : Byte) (s : State) :
    outputs (ioWrite p v s) = outputs s ++ [.ioWrite p v] :=
  outputs_logEvent_of_isOutput rfl

theorem busOnly_ioWrite (p : IoPort) (v : Byte) (s : State) : BusOnly s (ioWrite p v s) :=
  busOnly_logEvent (.ioWrite p v) s

/-- Each write instruction is an `ioWrite` of the register to its port. -/
theorem exec_output_eq_ioWrite (s : State) (r : Reg) (n : Byte) :
    ∀ x ∈ [((.wrtd r : Instr), IoPort.data), (.wrtc r, .control), (.wrte r n, .extended n)],
      exec x.1 s = .next (ioWrite x.2 (readReg r s) s) :=
  List.forall_mem_cons.mpr ⟨rfl, List.forall_mem_cons.mpr ⟨rfl, List.forall_mem_singleton.mpr rfl⟩⟩

/-- Settles O51: one event that is an output, and a bus operation keeps all else. -/
theorem outputInstructions : Obligations.OutputInstructions := fun s r n x hx =>
  have hbus : BusOnly s (ioWrite x.2 (readReg r s) s) := busOnly_ioWrite x.2 (readReg r s) s
  ⟨ioWrite x.2 (readReg r s) s, exec_output_eq_ioWrite s r n x hx, ioWrite_history s x.2 (readReg r s),
    outputs_ioWrite x.2 (readReg r s) s, ioWrite_env s x.2 (readReg r s), hbus.iar, hbus.frame [] 0#8⟩

end Sys2Proof.Machine
end

section
namespace Sys2Proof.Machine

/-! ## What the boundary decides, case by case

The step follows the boundary, and the boundary is RESET or one equation for each run state (60_exceptions.md R289,
R318, 70_reset_and_hazards.md R320). -/

theorem step_of_boundary_done {s t : State} (h : boundary s = .done t) : step s = .next t := by rw [step, h]

theorem step_of_boundary_runNext {s u : State} (h : boundary s = .runNext u) : step s = runInstruction u := by
  rw [step, h]

section

variable {s : State}

theorem boundary_of_reset (hr : (samplePins s).1.reset = true) :
    boundary s = .done (applyReset (samplePins s).1.pause (samplePins s).2) := by
  rw [boundary, boundaryWith, if_pos hr]

theorem boundary_of_running (hr : (samplePins s).1.reset = false) (hs : s.run = .running) :
    boundary s =
      if (samplePins s).1.pause then .done (enterPause (samplePins s).1.intreq (samplePins s).2)
      else if accepts (samplePins s).1.intreq (samplePins s).2 then .done (acceptInterrupt (samplePins s).2)
      else .runNext (samplePins s).2 := by
  simp [boundary, boundaryWith, hr, hs]

theorem boundary_of_haltWait (hr : (samplePins s).1.reset = false) (hs : s.run = .haltWait) :
    boundary s =
      if acceptsInHalt (samplePins s).1 (samplePins s).2 then .done (acceptInterrupt (samplePins s).2)
      else .done (samplePins s).2 := by
  simp [boundary, boundaryWith, hr, hs]

theorem boundary_of_pauseWait (hr : (samplePins s).1.reset = false) (hs : s.run = .pauseWait) :
    boundary s =
      if (samplePins s).1.pause then .done (samplePins s).2 else leavePause (samplePins s).2 := by
  simp [boundary, boundaryWith, hr, hs]

end

/-! ## O52: NOP and HALT -/

/-- Settles O52. -/
theorem nopAndHalt : Obligations.NopAndHalt := fun _ => ⟨rfl, rfl, rfl⟩

/-! ## O2: RESET -/

/-- The fields beside those of `resetCore_latches` that a RESET leaves at a value the spec fixes. -/
theorem resetCore_control (s : State) :
    (resetCore s).ii = false ∧ (resetCore s).run = .running ∧ (resetCore s).params = s.params := by
  simp only [resetCore, writeFlag_spec, and_self, nextDraw_params]

/-- What both forms of a RESET clear and keep: the byte latched with PAUSE low costs one bus operation. -/
theorem applyReset_spec (pause : Bool) (s : State) :
    (applyReset pause s).iar = 0 ∧ (applyReset pause s).ii = false ∧
      (applyReset pause s).intWaiting = false ∧ (applyReset pause s).params = s.params := by
  obtain ⟨hiar, hwait, -⟩ := resetCore_latches s
  obtain ⟨hii, -, hpar⟩ := resetCore_control s
  cases pause with
  | false => exact ⟨hiar, hii, hwait, hpar⟩
  | true =>
    have hbus : BusOnly (resetCore s) (memRead 0 (resetCore s)).2 := busOnly_memRead 0 _
    exact ⟨hbus.iar.trans hiar, hbus.ii.trans hii, hbus.intWaiting.trans hwait, hbus.params.trans hpar⟩

theorem applyReset_ii (pause : Bool) (s : State) : (applyReset pause s).ii = false := by
  obtain ⟨-, hii, -, -⟩ := applyReset_spec pause s
  exact hii

/-- With PAUSE high the processor runs, and no byte is latched. -/
theorem applyReset_running (s : State) :
    (applyReset false s).run = .running ∧ (applyReset false s).prefetch = none := by
  obtain ⟨-, -, hlatch⟩ := resetCore_latches s
  obtain ⟨-, hrun, -⟩ := resetCore_control s
  exact ⟨hrun, hlatch⟩

/-- With PAUSE low the processor waits with a byte read at address 0 (70_reset_and_hazards.md R323). -/
theorem applyReset_waiting (s : State) :
    (applyReset true s).run = .pauseWait ∧
      ∃ b, (applyReset true s).prefetch = some b ∧
        (kindAt s.params.memMap 0 = .ram ∨ kindAt s.params.memMap 0 = .rom → b = s.mem.read 0) := by
  refine ⟨rfl, (memRead 0 (resetCore s)).1, rfl, fun hkind => ?_⟩
  obtain ⟨-, -, hpar⟩ := resetCore_control s
  rw [memRead_stored (by rwa [hpar]), (quiet_resetCore s).mem]

/-- Settles O2: the sample is a bus operation, and the step is `applyReset` after it. -/
theorem resetFromAnyState : Obligations.ResetFromAnyState := fun s hr => by
  obtain ⟨hiar, hii, hwait, hpar⟩ := applyReset_spec (samplePins s).1.pause (samplePins s).2
  have hbytes : BytesKept s (applyReset (samplePins s).1.pause (samplePins s).2) :=
    ((quiet_samplePins s).trans (quiet_applyReset _ _)).bytesKept
  refine ⟨_, step_of_boundary_done (boundary_of_reset hr), hiar, hii, hwait, hbytes,
    hpar.trans (samplePins_params s), fun hp => ?_, fun hp => ?_⟩
  · rw [hp]; exact applyReset_running _
  · rw [hp, ← samplePins_params s, ← samplePins_mem s]; exact applyReset_waiting _

/-! ## O3, O4: acceptance of an interrupt, and the return from it (60_exceptions.md R290, R293) -/

theorem lookAhead_eq (s : State) :
    lookAhead s = if s.prefetch = none then (memRead s.iar s).2 else s := by
  unfold lookAhead
  split
  · next h => rw [if_neg (by simp [h])]
  · next h => rw [if_pos h]

/-- What an acceptance saves, changes and keeps, `ea` being the address the vector byte gives with the state after
the last bus operation. -/
structure Accepted (ea : Addr × State) (s t : State) : Prop where
  ii : t.ii = true
  pushed : Pushed s.iar s t
  iar : t.iar = ea.1
  run : t.run = .running
  bus : BusAs ea.2 t
  regs : RegsKept [] s t
  psl : t.psl = s.psl
  f : t.f = s.f
  bytes : BytesKept s t
  params : t.params = s.params

theorem accepted_acceptInterrupt (s : State) {v : Byte × State} {ea : Addr × State}
    (hv : v = vectorRead (setInhibit true (lookAhead s))) (he : ea = zeroRelEA (fieldI v.1) (fieldD v.1) v.2) :
    Accepted ea s (acceptInterrupt s) := by
  rw [acceptInterrupt_spec s v ea hv he]
  exact
    { ii := rfl
      pushed := ⟨rfl, (rasGet_rasSet _ _ _ _).trans (if_pos rfl),
        fun _ hj => (rasGet_rasSet _ _ _ _).trans (if_neg hj)⟩
      iar := rfl
      run := rfl
      bus := ⟨rfl, rfl⟩
      regs := fun q _ => by cases q <;> rfl
      psl := rfl
      f := rfl
      bytes := fun _ => rfl
      params := rfl }

/-- An acceptance after a bus operation, seen from the state before it. -/
theorem BusOnly.accepted {s u t : State} {ea : Addr × State} (hb : BusOnly s u) (h : Accepted ea u t) :
    Accepted ea s t :=
  { h with
    pushed := by simpa only [Pushed, hb.iar, hb.sp, hb.ras] using h.pushed
    regs := fun q hq => (h.regs q hq).trans (hb.getPhys q)
    psl := h.psl.trans hb.psl
    f := h.f.trans hb.f
    bytes := fun a => (h.bytes a).trans (by rw [hb.mem])
    params := h.params.trans hb.params }

theorem acceptInterrupt_ii (s : State) : (acceptInterrupt s).ii = true := (accepted_acceptInterrupt s rfl rfl).ii

/-- A request that II lets through is accepted in RUN and in a HALT wait (60_exceptions.md R289, R317). -/
theorem step_eq_acceptInterrupt {s : State}
    (hpins : (samplePins s).1 = { intreq := true, pause := false, reset := false }) (hii : s.ii = false)
    (hrun : s.run ≠ .pauseWait) : step s = .next (acceptInterrupt (samplePins s).2) := by
  have hreset : (samplePins s).1.reset = false := by rw [hpins]
  apply step_of_boundary_done
  cases hs : s.run with
  | running => rw [boundary_of_running hreset hs]; simp [hpins, accepts, hii]
  | haltWait => rw [boundary_of_haltWait hreset hs]; simp [hpins, acceptsInHalt, accepts, hii]
  | pauseWait => exact absurd hs hrun

/-- Settles O3: the reads of the statement are those of the acceptance, and the sample before it is a bus
operation. -/
theorem interruptAcceptance : Obligations.InterruptAcceptance := by
  intro s hpins hii hrun sampled ahead v ea
  have hahead : ahead = lookAhead sampled := by
    rw [lookAhead_eq, samplePins_prefetch, samplePins_iar]
  have hacc : Accepted ea sampled (acceptInterrupt sampled) :=
    accepted_acceptInterrupt sampled (v := v) (by rw [← hahead]) rfl
  have h : Accepted ea s (acceptInterrupt sampled) := (busOnly_samplePins s).accepted hacc
  refine ⟨acceptInterrupt sampled, step_eq_acceptInterrupt hpins hii hrun, h.ii, h.pushed, h.iar, h.run, h.bus,
    h.regs, h.psl, h.f, h.bytes, h.params, inPage 0#2 ((fieldD v.1).signExtend 13),
    toNat_zeroRelBase (fieldD v.1), fun hdirect => ?_, fun hindirect => ?_⟩
  · rw [h.iar]; simp only [ea, zeroRelEA, resolve, hdirect]; rfl
  · rw [h.iar]; simp only [ea, zeroRelEA, resolve, hindirect]; rfl

/-- Settles O4: the pop takes the entry the acceptance pushed, and neither touches more. -/
theorem interruptThenReturn : Obligations.InterruptThenReturn := fun s => by
  have hacc := accepted_acceptInterrupt s rfl rfl
  obtain ⟨hsp, hentry, hothers⟩ := hacc.pushed
  obtain ⟨hframe, hras, -, htaken, -⟩ := returnDone_takeReturn (s := acceptInterrupt s) trivial true
  obtain ⟨hiar, hpop, hii⟩ := htaken trivial
  obtain ⟨hregs, hpsl, hf, -, -, -, -, hbytes⟩ := hframe
  refine ⟨takeReturn true (acceptInterrupt s), rfl, ?_, ?_, hii, hpsl.trans hacc.psl, hf.trans hacc.f,
    fun q hq => (hregs q hq).trans (hacc.regs q hq), fun a => (hbytes a).trans (hacc.bytes a), fun j hj => ?_⟩
  · rw [hiar, hsp, hentry]
  · rw [hpop, hsp, BitVec.add_sub_cancel]
  · rw [hras, hothers j hj]

/-! ## O5, O6: the wait states (60_exceptions.md R289, R295, R318) -/

/-- Settles O5. -/
theorem waitStatesHold : Obligations.WaitStatesHold := by
  intro s hr
  refine ⟨fun hs hrefuse => step_of_boundary_done ?_, fun hs hp => step_of_boundary_done ?_⟩
  · have hno : acceptsInHalt (samplePins s).1 (samplePins s).2 = false := by
      rcases hrefuse with h | h <;> simp [acceptsInHalt, accepts, h]
    rw [boundary_of_haltWait hr hs, hno]; rfl
  · rw [boundary_of_pauseWait hr hs, if_pos hp]

theorem getPhys_enterPause (intreq : Bool) (q : PhysReg) (s : State) :
    getPhys q (enterPause intreq s) = getPhys q s := by cases q <;> rfl

/-- Settles O6: the boundary is `enterPause` in RUN and `leavePause` at the end of the wait. -/
theorem pauseStopsAndResumes : Obligations.PauseStopsAndResumes := by
  intro s hr
  have hbus : BusOnly s (samplePins s).2 := busOnly_samplePins s
  refine ⟨fun hs hp => ?_, fun hs hp => ?_⟩
  · have hpause : boundary s = .done (enterPause (samplePins s).1.intreq (samplePins s).2) := by
      rw [boundary_of_running hr hs, if_pos hp]
    have hwaiting : ((samplePins s).1.intreq && !(samplePins s).2.ii) = ((samplePins s).1.intreq && !s.ii) := by
      rw [hbus.ii]
    exact ⟨_, step_of_boundary_done hpause, rfl, hwaiting,
      fun q _ => (getPhys_enterPause _ q _).trans (hbus.getPhys q), hbus.psl, ⟨hbus.f, hbus.ii, hbus.sp⟩,
      hbus.iar, hbus.ras, hbus.mem, samplePins_history s, hbus.prefetch, hbus.params⟩
  · have hleave : boundary s = leavePause (samplePins s).2 := by
      rw [boundary_of_pauseWait hr hs, hp]; rfl
    refine ⟨fun hw => step_of_boundary_done ?_, fun hw => step_of_boundary_runNext ?_⟩
    all_goals rw [hleave, leavePause, samplePins_intWaiting, hw]; rfl

/-! ## O8: the faults (30_encoding.md R141, R142) -/

/-- A meaning has a next state, or it is the fault of the one byte its instruction is encoded by. -/
theorem exec_next_or_fault (i : Instr) (s : State) :
    (∃ t, exec i s = .next t) ∨
      ∃ b, encode i = [b] ∧ isUnassigned b = true ∧ exec i s = .fault (faultOf b) := by
  cases i with
  | indeterminate00 | unassigned10 | unassigned11 | unassigned90 | unassigned91 | unassignedB6 | unassignedB7
  | unassignedC4 | unassignedC5 | unassignedC6 | unassignedC7 => exact .inr ⟨_, rfl, rfl, rfl⟩
  | _ => exact .inl ⟨_, rfl⟩

/-- The instruction fetched is decoded from the first byte fetched. -/
theorem fetchInstr_eq_decodeBytes (s : State) :
    ∃ b1 b2, (fetchInstr s).1 = decodeBytes (fetchFirst s).1 b1 b2 := by
  unfold fetchInstr
  dsimp only
  split <;> exact ⟨_, _, rfl⟩

/-- An instruction of one byte comes from that byte. -/
theorem fetchFirst_of_encode {s : State} {b : Byte} (h : encode (fetchInstr s).1 = [b]) :
    (fetchFirst s).1 = b := by
  obtain ⟨b1, b2, hdecode⟩ := fetchInstr_eq_decodeBytes s
  obtain ⟨-, hprefix⟩ := decodeBytes_spec (fetchFirst s).1 b1 b2
  rw [← hdecode, h, List.cons_prefix_cons] at hprefix
  obtain ⟨hb, -⟩ := hprefix
  exact hb.symm

theorem runInstruction_next_or_fault (s : State) :
    (∃ t, runInstruction s = .next t) ∨
      isUnassigned (fetchFirst s).1 = true ∧ runInstruction s = .fault (faultOf (fetchFirst s).1) := by
  rcases exec_next_or_fault (fetchInstr s).1 (fetchInstr s).2 with hnext | ⟨b, henc, hcode, hfault⟩
  · exact .inl hnext
  · rw [fetchFirst_of_encode henc]; exact .inr ⟨hcode, hfault⟩

/-- Settles O8: only an instruction can fault, by the byte it is fetched from. -/
theorem stepFaultsOnlyOnUnassignedCodes : Obligations.StepFaultsOnlyOnUnassignedCodes := fun s => by
  cases hb : boundary s with
  | done t => exact .inl ⟨t, step_of_boundary_done hb⟩
  | runNext u =>
    rw [step_of_boundary_runNext hb]
    rcases runInstruction_next_or_fault u with hnext | ⟨hcode, hfault⟩
    · exact .inl hnext
    · exact .inr ⟨u, rfl, hcode, hfault⟩

/-! ## O55: the writers of II (60_exceptions.md R286, R287)

Every meaning leaves II at the value of `inhibitAfter`, which four instructions alone take from elsewhere than II. -/

/-- II after an instruction. -/
def inhibitAfter (i : Instr) (s : State) : Bool :=
  match i with
  | .lpsu => s.r0.getLsbD 5
  | .ppsu v => s.ii || v.getLsbD 5
  | .cpsu v => s.ii && !v.getLsbD 5
  | .rete v => s.ii && !matchTrue v s
  | _ => s.ii

/-! ### The shapes shared by the meanings -/

theorem loadReg_ii (r : Reg) (v : Byte) (s : State) : (loadReg r v s).ii = s.ii := writeReg_ii s r v

theorem setPsl_writeReg_ii (p : Byte) (r : Reg) (v : Byte) (s : State) :
    (setPsl p (writeReg r v s)).ii = s.ii := writeReg_ii s r v

theorem inputTo_ii (r : Reg) (p : IoPort) (s : State) : (inputTo r p s).ii = s.ii :=
  (loadReg_ii r _ _).trans (ioRead_ii p s)

theorem absEA_ii (x : Reg) (i : Bool) (ic : IndexControl) (a : Off) (s : State) :
    (absEA x i ic a s).2.ii = s.ii := by
  obtain ⟨-, -, ⟨-, hii, -⟩, -, -⟩ := frame_absEA x i ic a 0#8 s
  exact hii

/-- Format R: the bus operations before `f` keep II, so `f` decides. -/
theorem withRel_ii {f : Byte → State → State} (hf : ∀ b t, (f b t).ii = t.ii) (i : Bool) (d : BitVec 7)
    (s : State) : (withRel i d f s).ii = s.ii :=
  (hf _ _).trans ((memRead_ii _ _).trans (relEA_ii i d s))

/-- Format A, in the same way. -/
theorem withAbs_ii {f : Reg → Byte → State → State} (hf : ∀ r b t, (f r b t).ii = t.ii) (x : Reg) (i : Bool)
    (ic : IndexControl) (a : Off) (s : State) : (withAbs x i ic a f s).ii = s.ii :=
  (hf _ _ _).trans ((memRead_ii _ _).trans (absEA_ii x i ic a s))

theorem branchRel_ii (taken i : Bool) (d : BitVec 7) (s : State) : (branchRel taken i d s).ii = s.ii := by
  cases taken
  · rfl
  · exact relEA_ii i d s

theorem branchAbs_ii (taken i : Bool) (a : Addr) (s : State) : (branchAbs taken i a s).ii = s.ii := by
  cases taken
  · rfl
  · exact branchEA_ii i a s

theorem callRel_ii (taken i : Bool) (d : BitVec 7) (s : State) : (callRel taken i d s).ii = s.ii := by
  cases taken
  · rfl
  · exact relEA_ii i d s

theorem callAbs_ii (taken i : Bool) (a : Addr) (s : State) : (callAbs taken i a s).ii = s.ii := by
  cases taken
  · rfl
  · exact branchEA_ii i a s

/-- A return that is taken clears II under `enable` (RETE), and no other does. -/
theorem return_ii (taken enable : Bool) (s : State) :
    (if taken then takeReturn enable s else s).ii = (s.ii && !(taken && enable)) := by
  cases taken
  · simp
  · cases enable <;> simp [takeReturn]

/-! ### The instructions -/

/-- What the writers of PSU have in common: II as written. -/
theorem UpperWritten.ii {f ii : Bool} {sp : BitVec 3} {s t : State} (h : UpperWritten f ii sp s t) : t.ii = ii := by
  obtain ⟨-, hii, -⟩ := h
  exact hii

theorem exec_ii {i : Instr} {s t : State} (h : exec i s = .next t) : t.ii = inhibitAfter i s := by
  cases i with
  | lpsu => cases h; exact (upperWritten_writePsu s.r0 s).ii
  | ppsu v => cases h; exact (upperWritten_preset v s).ii
  | cpsu v => cases h; exact (upperWritten_clear v s).ii
  | rete v => cases h; rw [return_ii, Bool.and_true]; rfl
  | retc v => cases h; rw [return_ii, Bool.and_false]; exact Bool.and_true _
  | lodz | lodi | strz | andz | andi | iorz | iori | eorz | eori | spsl => cases h; exact loadReg_ii _ _ _
  | lodr | andr | iorr | eorr => cases h; exact withRel_ii (fun _ _ => loadReg_ii _ _ _) _ _ _
  | loda | anda | iora | eora => cases h; exact withAbs_ii (fun _ _ _ => loadReg_ii _ _ _) _ _ _ _ _
  | strr => cases h; exact relEA_ii _ _ _
  | stra => cases h; exact absEA_ii _ _ _ _ _
  | addz | addi | subz | subi | rrl | rrr => cases h; exact setPsl_writeReg_ii _ _ _ _
  | addr | subr => cases h; exact withRel_ii (fun _ _ => setPsl_writeReg_ii _ _ _ _) _ _ _
  | adda | suba => cases h; exact withAbs_ii (fun _ _ _ => setPsl_writeReg_ii _ _ _ _) _ _ _ _ _
  | dar => cases h; exact writeReg_ii _ _ _
  | comr => cases h; exact withRel_ii (fun _ _ => rfl) _ _ _
  | coma => cases h; exact withAbs_ii (fun _ _ _ => rfl) _ _ _ _ _
  | spsu => cases h; exact (loadReg_ii _ _ _).trans (senseSample_ii s)
  | tpsu => cases h; exact senseSample_ii s
  | bctr | bcfr | brnr => cases h; exact branchRel_ii _ _ _ _
  | bcta | bcfa | brna => cases h; exact branchAbs_ii _ _ _ _
  | birr | bdrr => cases h; exact (branchRel_ii _ _ _ _).trans (writeReg_ii _ _ _)
  | bira | bdra => cases h; exact (branchAbs_ii _ _ _ _).trans (writeReg_ii _ _ _)
  | zbrr | zbsr => cases h; exact zeroRelEA_ii _ _ _
  | bxa | bsxa => cases h; exact indexedBranchEA_ii _ _ _
  | bstr | bsfr | bsnr => cases h; exact callRel_ii _ _ _ _
  | bsta | bsfa | bsna => cases h; exact callAbs_ii _ _ _ _
  | redd | redc | rede => cases h; exact inputTo_ii _ _ _
  | comz | comi | tmi | tpsl | lpsl | ppsl | cpsl | wrtd | wrtc | wrte | nop | halt => cases h; rfl
  | indeterminate00 | unassigned10 | unassigned11 | unassigned90 | unassigned91 | unassignedB6 | unassignedB7
  | unassignedC4 | unassignedC5 | unassignedC6 | unassignedC7 => cases h

theorem inhibitAfter_sets {i : Instr} {s : State} (hs : s.ii = false) (h : inhibitAfter i s = true) :
    i = .lpsu ∧ s.r0.getLsbD 5 = true ∨ ∃ v, i = .ppsu v ∧ v.getLsbD 5 = true := by
  cases i with
  | lpsu => exact .inl ⟨rfl, h⟩
  | ppsu v => exact .inr ⟨v, rfl, by simpa [inhibitAfter, hs] using h⟩
  | _ => simp [inhibitAfter, hs] at h

theorem inhibitAfter_clears {i : Instr} {s : State} (hs : s.ii = true) (h : inhibitAfter i s = false) :
    i = .lpsu ∧ s.r0.getLsbD 5 = false ∨ (∃ v, i = .cpsu v ∧ v.getLsbD 5 = true) ∨
      ∃ v, i = .rete v ∧ (v = 3#2 ∨ v = Psl.cc s.psl) := by
  cases i with
  | lpsu => exact .inl ⟨rfl, h⟩
  | cpsu v => exact .inr (.inl ⟨v, rfl, by simpa [inhibitAfter, hs] using h⟩)
  | rete v =>
    have hmatch : matchTrue v s = true := by simpa [inhibitAfter, hs] using h
    exact .inr (.inr ⟨v, rfl, (matchTrue_iff v s).mp hmatch⟩)
  | _ => simp [inhibitAfter, hs] at h

/-! ### The step -/

/-- R0, PSL and II are as before: what II after an instruction depends on. -/
structure StatusKept (s t : State) : Prop where
  r0 : t.r0 = s.r0
  psl : t.psl = s.psl
  ii : t.ii = s.ii

theorem StatusKept.trans {s t u : State} (h : StatusKept s t) (k : StatusKept t u) : StatusKept s u :=
  ⟨k.r0.trans h.r0, k.psl.trans h.psl, k.ii.trans h.ii⟩

theorem StatusKept.inhibitAfter {s t : State} (h : StatusKept s t) (i : Instr) :
    inhibitAfter i t = inhibitAfter i s := by
  unfold Machine.inhibitAfter matchTrue
  rw [h.r0, h.psl, h.ii]

theorem BusOnly.statusKept {s t : State} (h : BusOnly s t) : StatusKept s t := ⟨h.r0, h.psl, h.ii⟩

theorem statusKept_setIar (a : Addr) (s : State) : StatusKept s (setIar a s) := ⟨rfl, rfl, rfl⟩

theorem statusKept_fetchByte (s : State) : StatusKept s (fetchByte s).2 :=
  (busOnly_memRead s.iar s).statusKept.trans (statusKept_setIar _ _)

theorem statusKept_fetchFirst (s : State) : StatusKept s (fetchFirst s).2 := by
  unfold fetchFirst
  split
  · exact ⟨rfl, rfl, rfl⟩
  · exact statusKept_fetchByte s

theorem statusKept_fetchInstr (s : State) : StatusKept s (fetchInstr s).2 :=
  fetchInstr_of_fetchByte s (statusKept_fetchFirst s) fun t h => h.trans (statusKept_fetchByte t)

theorem runInstruction_ii {s t : State} (h : runInstruction s = .next t) :
    t.ii = inhibitAfter (fetchInstr s).1 s :=
  (exec_ii h).trans ((statusKept_fetchInstr s).inhibitAfter _)

/-- Everything a step can do to II. -/
inductive InhibitStep (s t : State) : Prop
  | reset (hr : (samplePins s).1.reset = true) (h : t.ii = false)
  | accept (hb : boundary s = .done (acceptInterrupt (samplePins s).2)) (h : t.ii = true)
  | keep (h : t.ii = s.ii)
  | run {u : State} (hb : boundary s = .runNext u) (h : t.ii = inhibitAfter (fetchInstr u).1 s)

/-- A step that runs an instruction from a state with the R0, PSL and II of the one before. -/
theorem InhibitStep.of_runNext {s t u : State} (hb : boundary s = .runNext u) (hu : StatusKept s u)
    (h : runInstruction u = .next t) : InhibitStep s t :=
  .run hb ((runInstruction_ii h).trans (hu.inhibitAfter _))

theorem step_ii {s t : State} (h : step s = .next t) : InhibitStep s t := by
  have hsample : StatusKept s (samplePins s).2 := (busOnly_samplePins s).statusKept
  have hdecides : Decides (samplePins s).1 (samplePins s).2 (boundary s) := boundaryWith_decides _ _
  have hleads : (boundary s).LeadsTo t := step_leadsTo h
  generalize hb : boundary s = act at hdecides hleads
  cases hdecides with
  | reset hr => cases hleads; exact .reset hr (applyReset_ii _ _)
  | pause | hold => cases hleads; exact .keep hsample.ii
  | accept => cases hleads; exact .accept hb (acceptInterrupt_ii _)
  | run => exact .of_runNext hb hsample hleads
  | resume => exact .of_runNext hb ⟨hsample.r0, hsample.psl, hsample.ii⟩ hleads

/-- What sets II (60_exceptions.md R286). -/
theorem step_sets_ii {s t : State} (h : step s = .next t) (hs : s.ii = false) (ht : t.ii = true) :
    boundary s = .done (acceptInterrupt (samplePins s).2) ∨
      ∃ u, boundary s = .runNext u ∧
        ((fetchInstr u).1 = .lpsu ∧ s.r0.getLsbD 5 = true ∨
          ∃ v, (fetchInstr u).1 = .ppsu v ∧ v.getLsbD 5 = true) := by
  cases step_ii h with
  | reset _ hii => cases ht.symm.trans hii
  | accept hb => exact .inl hb
  | keep hii => cases ht.symm.trans (hii.trans hs)
  | run hb hii => exact .inr ⟨_, hb, inhibitAfter_sets hs (hii.symm.trans ht)⟩

/-- What clears II (60_exceptions.md R287). -/
theorem step_clears_ii {s t : State} (h : step s = .next t) (hs : s.ii = true) (ht : t.ii = false) :
    (samplePins s).1.reset = true ∨
      ∃ u, boundary s = .runNext u ∧
        ((fetchInstr u).1 = .lpsu ∧ s.r0.getLsbD 5 = false ∨
          (∃ v, (fetchInstr u).1 = .cpsu v ∧ v.getLsbD 5 = true) ∨
          ∃ v, (fetchInstr u).1 = .rete v ∧ (v = 3#2 ∨ v = Psl.cc s.psl)) := by
  cases step_ii h with
  | reset hr => exact .inl hr
  | accept _ hii => cases ht.symm.trans hii
  | keep hii => cases ht.symm.trans (hii.trans hs)
  | run hb hii => exact .inr ⟨_, hb, inhibitAfter_clears hs (hii.symm.trans ht)⟩

/-- Settles O55: both directions read II after an instruction off `inhibitAfter`. -/
theorem inhibitWriters : Obligations.InhibitWriters :=
  ⟨fun _ _ => step_sets_ii, fun _ _ => step_clears_ii, acceptInterrupt_ii, applyReset_ii,
    fun _ => ⟨_, rfl, exec_ii (i := .lpsu) rfl⟩,
    fun _ v hv => ⟨_, rfl, (exec_ii (i := .ppsu v) rfl).trans (by rw [inhibitAfter, hv, Bool.or_true])⟩,
    fun _ v hv => ⟨_, rfl, (exec_ii (i := .cpsu v) rfl).trans (by simp [inhibitAfter, hv])⟩,
    fun s v hv => ⟨_, rfl, (exec_ii (i := .rete v) rfl).trans
      (by simp [inhibitAfter, (matchTrue_iff v s).mpr hv])⟩⟩

end Sys2Proof.Machine
end
